-- ==== Sys2Proof/Word.lean ====
section
/-! DEFINITION. The word types of the Huffman core and the plain data types its state is made of
(spec/10_state.md, spec/60_exceptions.md R221). No operation stands here but the empty value. -/

namespace Sys2Proof

/-- A byte of BLOB or of a packet, and a symbol: `SYM_BITS` = 8 (R9). -/
abbrev Byte := BitVec 8

/-- A storage block of a BitSequence: `W` = 64 bits (R9, R21). -/
abbrev Word := BitVec 64

/-- A BitSequence value `(blocks, fill)` (R21). `fill` is a count in `0..64`; the invariants R22 are
`BitSeq.Wf` in Machine/Blocks.lean. -/
structure BitSeq where
  /-- the storage blocks, block 0 first -/
  blocks : List Word
  /-- how many bits of the last block are meaningful -/
  fill : Nat
  deriving DecidableEq, Repr

/-- The empty value `([0], 0)` (R24). -/
def BitSeq.empty : BitSeq := ⟨[0], 0⟩

/-- One allocated node of the arena (R30, R31). The constructor is `KIND`; a child field is `none`
when its valid bit (`LV`, `RV`) is 0. The fields R35 says no rule reads are not held. -/
inductive Node where
  /-- KIND = LEAF: the symbol and NFREQ -/
  | leaf (sym : Byte) (nfreq : Nat)
  /-- KIND = INTERNAL: left child (LV, L), right child (RV, R), NFREQ -/
  | internal (left right : Option Nat) (nfreq : Nat)
  deriving DecidableEq, Repr

/-- The tree arena (R30) and the root pointer (R32): the allocated slots `0..NODE_COUNT-1` in index
order, and `ROOT` when `ROOT_VALID` = 1. -/
structure Arena where
  /-- `NODE[0..NODE_COUNT-1]` -/
  nodes : List Node
  /-- `ROOT` when `ROOT_VALID` = 1, `none` when it is 0 -/
  root : Option Nat
  deriving DecidableEq, Repr

/-- One entry `(freq, seq, node)` of the sorter (R29). -/
structure SortEntry where
  /-- the frequency -/
  freq : Nat
  /-- the insertion sequence number -/
  seq : Nat
  /-- the node's index in the arena -/
  node : Nat
  deriving DecidableEq, Repr

/-- The call errors `E_*` (R221). -/
inductive CallError where
  /-- E_BAD_TAG, 0x01 -/
  | badTag
  /-- E_TRUNCATED, 0x02 -/
  | truncated
  /-- E_REMAINDER, 0x03 -/
  | remainder
  /-- E_ALPHABET, 0x04 -/
  | alphabet
  /-- E_CAPACITY, 0x05 -/
  | capacity
  deriving DecidableEq, Repr

/-- The faults `F_*` that latch the core (R221). -/
inductive FaultCode where
  /-- F_POP_EMPTY, 0x10 -/
  | popEmpty
  /-- F_INDEX, 0x11 -/
  | index
  /-- F_NUM_BITS, 0x12 -/
  | numBits
  /-- F_TABLE_CONFLICT, 0x13 -/
  | tableConflict
  /-- F_DUP_SYMBOL, 0x14 -/
  | dupSymbol
  /-- F_BAD_STREAM, 0x15 -/
  | badStream
  /-- F_ILLEGAL_CMD, 0x16 -/
  | illegalCmd
  /-- F_NO_ROOT, 0x17 -/
  | noRoot
  /-- F_NO_CODE, 0x18 -/
  | noCode
  deriving DecidableEq, Repr

/-- The status codes (R42, R221): every value STATUS ever takes. -/
inductive Status where
  /-- OK, 0x00 -/
  | ok
  /-- a call error -/
  | callError (e : CallError)
  /-- a fault -/
  | fault (f : FaultCode)
  /-- F_FAULTED, 0x1F: the refusal of a command while FAULT = 1 -/
  | faulted
  deriving DecidableEq, Repr

/-- What a `raise` of the pseudocode names (R15): a call error or a fault. -/
inductive Raise where
  /-- `raise E_x` -/
  | call (e : CallError)
  /-- `raise F_x` -/
  | fault (f : FaultCode)
  deriving DecidableEq, Repr

end Sys2Proof
end

