-- ==== Sys2Proof/Config.lean ====
section
/-! DEFINITION. The parameters of the core (spec/00_scope.md R9) and the free values: what the spec
leaves open and no proof can see (notes/assumptions 3, 6, 9). -/

namespace Sys2Proof

/-- `W`, read as CFG_W (R9, R45). -/
def Config.blockWidth : Nat := 64

/-- `SYM_BITS`, read as CFG_SYM_BITS (R9, R45). -/
def Config.symBits : Nat := 8

/-- `NODE_CAP`, read as CFG_NODE_CAP (R9, R36, R45). -/
def Config.nodeCap : Nat := 65281

/-- `NBS`, read as CFG_NBS (R9, R25, R45). -/
def Config.nbs : Nat := 263

/-- The open parameters of R9 (D8, U25); `none` is "unbounded". -/
structure Capacities where
  /-- `IN_CAP`: most symbols IN holds -/
  inCap : Option Nat
  /-- `OUT_CAP`: most symbols OUT holds -/
  outCap : Option Nat
  /-- `BLOB_CAP`: most bytes BLOB holds -/
  blobCap : Option Nat
  /-- `BS_CAP`: most bits one bit-sequence register holds -/
  bsCap : Option Nat
  deriving DecidableEq, Repr

/-- The spec's default: every capacity unbounded (R9). -/
def Config.defaultCaps : Capacities := ⟨none, none, none, none⟩

/-- FREE VALUE (log 9). What a 64-bit read-out shows of a number that does not fit 64 bits: `zext_64`
is only defined below 2^64 (R10). -/
opaque Config.wide64 : Nat → BitVec 64

/-- FREE VALUE (log 6). Draw `k` of the bit list left in register `r` by a raise (R229). -/
opaque Config.freeBits : Nat → Nat → List Bool

/-- FREE VALUE (log 6). Draw `k` of `CODE_VALID[i]` after a raise (R229). -/
opaque Config.freeValid : Nat → Nat → Bool

/-- FREE VALUE (log 6). Draw `k` of `TA_SYM[i]` after a raise (R229). -/
opaque Config.freeTaSym : Nat → Nat → Byte

/-- FREE VALUE (log 6). Draw `k` of `TA_LEN[i]` after a raise (R229). -/
opaque Config.freeTaLen : Nat → Nat → Byte

/-- FREE VALUE (log 6). Draw `k` of `TA_N` after a raise (R229). -/
opaque Config.freeTaN : Nat → Nat

/-- FREE VALUE (log 6). Draw `k` of `CUR` after a raise (R229). -/
opaque Config.freeCur : Nat → Nat

/-- FREE VALUE (log 6). Draw `k` of `FREQ[i]`, any 64-bit value (R28), after a raise (R229). -/
opaque Config.freeFreq : Nat → Nat → BitVec 64

/-- FREE VALUE (log 6, log 7, log 22). Draw `k` of `SORT` after a raise (R229). -/
opaque Config.freeSort : Nat → List SortEntry

/-- FREE VALUE (log 6). Draw `k` of `SEQ`, any 64-bit value (R29), after a raise (R229). -/
opaque Config.freeSeq : Nat → BitVec 64

/-- FREE VALUE (log 6, log 22). Draw `k` of the nodes, of any NFREQ, after a raise (R229). -/
opaque Config.freeNodes : Nat → List Node

/-- FREE VALUE (log 6). Draw `k` of `ROOT_VALID` and `ROOT` after a raise (R229). -/
opaque Config.freeRoot : Nat → Option Nat

end Sys2Proof
end

