-- ==== Sys2Proof/Syntax.lean ====
section
/-! DEFINITION. The instructions of the core: one constructor per row of spec/opcode_table.json. The
first 23 are the commands (spec/30_encoding.md R83), the last 4 the forms of the container's varint
(R88). Operands are held as the packet gives them (R81); which are legal is WellFormed.lean. -/

namespace Sys2Proof

/-- One row of the opcode table with its operands. -/
inductive Instr where
  /-- BS.CLEAR r (R113) -/
  | bsClear (r : BitVec 16)
  /-- BS.COPY r, s: destination r, source s (R114) -/
  | bsCopy (r s : BitVec 16)
  /-- BS.PUSH_BIT r, bit (R116) -/
  | bsPushBit (r : BitVec 16) (bit : Byte)
  /-- BS.PUSH_BYTE r, byte, nbits (R118) -/
  | bsPushByte (r : BitVec 16) (byte nbits : Byte)
  /-- BS.PUSH_SEQ r, s: receiver r, operand s (R121) -/
  | bsPushSeq (r s : BitVec 16)
  /-- BS.POP r (R125) -/
  | bsPop (r : BitVec 16)
  /-- BS.AT r, index (R127) -/
  | bsAt (r : BitVec 16) (index : BitVec 64)
  /-- BS.SIZE r (R128) -/
  | bsSize (r : BitVec 16)
  /-- BS.ITER r (R129) -/
  | bsIter (r : BitVec 16)
  /-- FREQ.COUNT (R140) -/
  | freqCount
  /-- TREE.BUILD (R146) -/
  | treeBuild
  /-- TABLE.DERIVE (R150) -/
  | tableDerive
  /-- DATA.ENCODE (R178) -/
  | dataEncode
  /-- TABLE.LOAD (R188) -/
  | tableLoad
  /-- TREE.INSERT sym, r (R153) -/
  | treeInsert (sym : Byte) (r : BitVec 16)
  /-- TREE.FROM_TABLE (R155) -/
  | treeFromTable
  /-- TREE.DECODE (R157) -/
  | treeDecode
  /-- TREE.INIT (R152) -/
  | treeInit
  /-- HEF.SERIALIZE (R181) -/
  | hefSerialize
  /-- HEF.DESERIALIZE (R185) -/
  | hefDeserialize
  /-- ENCODE (R190) -/
  | encodeInput
  /-- DECODE (R192) -/
  | decodeBlob
  /-- CSR.READ n (R210) -/
  | csrRead (n : Byte)
  /-- VARINT.TAG0: tag byte 0x00 and 1 value byte (R88) -/
  | varintTag0 (v : BitVec 8)
  /-- VARINT.TAG1: tag byte 0x01 and 2 value bytes (R88) -/
  | varintTag1 (v : BitVec 16)
  /-- VARINT.TAG2: tag byte 0x02 and 4 value bytes (R88) -/
  | varintTag2 (v : BitVec 32)
  /-- VARINT.TAG3: tag byte 0x03 and 8 value bytes (R88) -/
  | varintTag3 (v : BitVec 64)
  deriving DecidableEq, Repr

/-- The four varint rows are elements of the container and no commands (opcode_table.json,
`match_mask_apply_to`). -/
def Instr.isVarint : Instr → Bool
  | .varintTag0 _ => true
  | .varintTag1 _ => true
  | .varintTag2 _ => true
  | .varintTag3 _ => true
  | .bsClear _ => false
  | .bsCopy _ _ => false
  | .bsPushBit _ _ => false
  | .bsPushByte _ _ _ => false
  | .bsPushSeq _ _ => false
  | .bsPop _ => false
  | .bsAt _ _ => false
  | .bsSize _ => false
  | .bsIter _ => false
  | .freqCount => false
  | .treeBuild => false
  | .tableDerive => false
  | .dataEncode => false
  | .tableLoad => false
  | .treeInsert _ _ => false
  | .treeFromTable => false
  | .treeDecode => false
  | .treeInit => false
  | .hefSerialize => false
  | .hefDeserialize => false
  | .encodeInput => false
  | .decodeBlob => false
  | .csrRead _ => false

/-- The pseudo-command of R87: `BS.PUSH_BYTE r, byte` without `nbits` means `nbits = 8`. -/
def Instr.bsPushByte8 (r : BitVec 16) (byte : Byte) : Instr := .bsPushByte r byte 8

/-- Register names of R25, as the assembler of R87 writes them: `CODE[s]`. -/
def RegName.code (s : Byte) : BitVec 16 := s.setWidth 16
/-- `PATH` = `BS[256]` (R25). -/
def RegName.path : BitVec 16 := 256
/-- `CODES` = `BS[257]` (R25). -/
def RegName.codes : BitVec 16 := 257
/-- `DATA` = `BS[258]` (R25). -/
def RegName.data : BitVec 16 := 258
/-- `TMP0` = `BS[259]` (R25). -/
def RegName.tmp0 : BitVec 16 := 259
/-- `TMP1` = `BS[260]` (R25). -/
def RegName.tmp1 : BitVec 16 := 260
/-- `TMP2` = `BS[261]` (R25). -/
def RegName.tmp2 : BitVec 16 := 261
/-- `TMP3` = `BS[262]` (R25). -/
def RegName.tmp3 : BitVec 16 := 262

end Sys2Proof
end

