-- ==== Sys2Proof/WellFormed.lean ====
section
/-! DEFINITION. Which operands are legal (spec/30_encoding.md R82, R86 (d) to (f)), and the names
under which a packet is rejected (R86). -/

namespace Sys2Proof

/-- Why a command packet is illegal: the cases (a) to (f) of R86, in its order. -/
inductive Reject where
  /-- (a) an empty packet -/
  | emptyPacket
  /-- (b) an opcode byte not in R83 -/
  | reservedOpcode
  /-- (c) a packet whose length differs from its format's -/
  | badLength
  /-- (d) a register operand of 263 or more -/
  | badRegister
  /-- (e) a bit operand other than 0 or 1 -/
  | badBit
  /-- (f) a control register number not in R45 -/
  | badCsr
  deriving DecidableEq, Repr

/-- The control register numbers of R45. -/
def csrListed (n : Byte) : Bool :=
  decide (n.toNat ≤ 0x0D) || (decide (0x10 ≤ n.toNat) && decide (n.toNat ≤ 0x13))

/-- The check of one register operand (R86 d). -/
def registerProblem (r : BitVec 16) : Option Reject :=
  if r.toNat < Config.nbs then none else some .badRegister

/-- The first illegal operand of an instruction, in the order of R86. -/
def Instr.problem : Instr → Option Reject
  | .bsClear r => registerProblem r
  | .bsCopy r s => (registerProblem r).or (registerProblem s)
  | .bsPushBit r bit => (registerProblem r).or (if bit.toNat ≤ 1 then none else some .badBit)
  | .bsPushByte r _ _ => registerProblem r
  | .bsPushSeq r s => (registerProblem r).or (registerProblem s)
  | .bsPop r => registerProblem r
  | .bsAt r _ => registerProblem r
  | .bsSize r => registerProblem r
  | .bsIter r => registerProblem r
  | .freqCount => none
  | .treeBuild => none
  | .tableDerive => none
  | .dataEncode => none
  | .tableLoad => none
  | .treeInsert _ r => registerProblem r
  | .treeFromTable => none
  | .treeDecode => none
  | .treeInit => none
  | .hefSerialize => none
  | .hefDeserialize => none
  | .encodeInput => none
  | .decodeBlob => none
  | .csrRead n => if csrListed n then none else some .badCsr
  | .varintTag0 _ => none
  | .varintTag1 _ => none
  | .varintTag2 _ => none
  | .varintTag3 _ => none

/-- Every operand of the instruction is legal (R82). -/
abbrev Instr.WellFormed (i : Instr) : Prop := i.problem = none

end Sys2Proof
end

