-- ==== Sys2Proof/Decode.lean ====
section
/-! DEFINITION. Decoding of command packets (spec/30_encoding.md R81 to R86) and of the container's
varints (R88 to R91), total on any bytes, and the encoder written from the same tables. -/

namespace Sys2Proof

/-- `le(v, k)` of R171: the k-byte little-endian list; element j is `(v div 2^(8j)) mod 256`. -/
def leBytes (k v : Nat) : List Byte :=
  (List.range k).map fun j => BitVec.ofNat 8 (v / 2 ^ (8 * j))

/-- The value of a little-endian byte list: the sum of `byte_j * 2^(8j)` (R89). -/
def leNat : List Byte → Nat
  | [] => 0
  | b :: rest => b.toNat + 256 * leNat rest

/-- The little-endian operand of `len` bytes at offset `off` of a packet (R81). -/
def operandAt (p : List Byte) (off len : Nat) : Nat :=
  leNat ((p.drop off).take len)

/-- The 16-bit register operand at offset `off` (R81). -/
def regAt (p : List Byte) (off : Nat) : BitVec 16 := BitVec.ofNat 16 (operandAt p off 2)

/-- The 8-bit operand at offset `off` (R81). -/
def byteAt (p : List Byte) (off : Nat) : Byte := BitVec.ofNat 8 (operandAt p off 1)

/-- The opcode map (R83) with the formats of R81: for an opcode that is listed, the length of its
packet and the command that the packet's operand bytes give. -/
def commandRow (op : Byte) (p : List Byte) : Option (Nat × Instr) :=
  match op.toNat with
  | 0x10 => some (3, .bsClear (regAt p 1))
  | 0x11 => some (5, .bsCopy (regAt p 1) (regAt p 3))
  | 0x12 => some (4, .bsPushBit (regAt p 1) (byteAt p 3))
  | 0x13 => some (5, .bsPushByte (regAt p 1) (byteAt p 3) (byteAt p 4))
  | 0x14 => some (5, .bsPushSeq (regAt p 1) (regAt p 3))
  | 0x15 => some (3, .bsPop (regAt p 1))
  | 0x16 => some (11, .bsAt (regAt p 1) (BitVec.ofNat 64 (operandAt p 3 8)))
  | 0x17 => some (3, .bsSize (regAt p 1))
  | 0x18 => some (3, .bsIter (regAt p 1))
  | 0x20 => some (1, .freqCount)
  | 0x21 => some (1, .treeBuild)
  | 0x22 => some (1, .tableDerive)
  | 0x23 => some (1, .dataEncode)
  | 0x30 => some (1, .tableLoad)
  | 0x31 => some (4, .treeInsert (byteAt p 1) (regAt p 2))
  | 0x32 => some (1, .treeFromTable)
  | 0x33 => some (1, .treeDecode)
  | 0x34 => some (1, .treeInit)
  | 0x40 => some (1, .hefSerialize)
  | 0x41 => some (1, .hefDeserialize)
  | 0x42 => some (1, .encodeInput)
  | 0x43 => some (1, .decodeBlob)
  | 0x50 => some (2, .csrRead (byteAt p 1))
  | _ => none

/-- The length of the packet an opcode fixes (R81), none for a reserved opcode. -/
def packetLength (op : Byte) : Option Nat := (commandRow op []).map Prod.fst

/-- Decodes a command packet, with the checks of R86 in its order (a) to (f). -/
def decodeCommand (p : List Byte) : Except Reject Instr :=
  match p with
  | [] => .error .emptyPacket
  | op :: _ =>
    match commandRow op p with
    | none => .error .reservedOpcode
    | some (n, i) =>
      if p.length ≠ n then .error .badLength
      else
        match i.problem with
        | none => .ok i
        | some e => .error e

/-- The `k` value bytes of a varint after its tag, and the bytes that follow it (R88, R174). -/
def varintValue (k : Nat) (rest : List Byte) : Except CallError (Nat × List Byte) :=
  if k ≤ rest.length then .ok (leNat (rest.take k), rest.drop k) else .error .truncated

/-- Decodes the varint at the head of a byte list and gives the bytes after it: the tag fixes the form,
whatever the value (R91); a tag above 3 is reserved (R91, R174), and missing bytes are a truncation. -/
def decodeVarint (bytes : List Byte) : Except CallError (Instr × List Byte) :=
  match bytes with
  | [] => .error .truncated
  | t :: rest =>
    match t.toNat with
    | 0 => (varintValue 1 rest).map fun x => (.varintTag0 (BitVec.ofNat 8 x.1), x.2)
    | 1 => (varintValue 2 rest).map fun x => (.varintTag1 (BitVec.ofNat 16 x.1), x.2)
    | 2 => (varintValue 4 rest).map fun x => (.varintTag2 (BitVec.ofNat 32 x.1), x.2)
    | 3 => (varintValue 8 rest).map fun x => (.varintTag3 (BitVec.ofNat 64 x.1), x.2)
    | _ => .error .badTag

/-- The bytes of a row of the opcode table whose bits are `w` (bit 0 the least significant bit of the
first byte), every bit above `nbits` zero, up to the longest packet (11 bytes, format FRI). -/
def tableBytes (nbits w : Nat) : List Byte := leBytes 11 (w % 2 ^ nbits)

/-- The instruction the decoder reads from a row of the opcode table whose bits are `w`: a first byte
0x00 to 0x03 is a varint tag (reserved as an opcode, R86 b), any other an opcode. -/
def decodeTableWord (nbits w : Nat) : Option Instr :=
  let bytes := tableBytes nbits w
  let op := bytes.headD 0
  if op.toNat ≤ 3 then
    match decodeVarint bytes with
    | .ok (i, _) => some i
    | .error _ => none
  else
    match packetLength op with
    | none => none
    | some n =>
      match decodeCommand (bytes.take n) with
      | .ok i => some i
      | .error _ => none

/-- The first byte: the opcode of R83, or the tag byte of R88. -/
def Instr.opcode : Instr → Byte
  | .bsClear _ => 0x10
  | .bsCopy _ _ => 0x11
  | .bsPushBit _ _ => 0x12
  | .bsPushByte _ _ _ => 0x13
  | .bsPushSeq _ _ => 0x14
  | .bsPop _ => 0x15
  | .bsAt _ _ => 0x16
  | .bsSize _ => 0x17
  | .bsIter _ => 0x18
  | .freqCount => 0x20
  | .treeBuild => 0x21
  | .tableDerive => 0x22
  | .dataEncode => 0x23
  | .tableLoad => 0x30
  | .treeInsert _ _ => 0x31
  | .treeFromTable => 0x32
  | .treeDecode => 0x33
  | .treeInit => 0x34
  | .hefSerialize => 0x40
  | .hefDeserialize => 0x41
  | .encodeInput => 0x42
  | .decodeBlob => 0x43
  | .csrRead _ => 0x50
  | .varintTag0 _ => 0x00
  | .varintTag1 _ => 0x01
  | .varintTag2 _ => 0x02
  | .varintTag3 _ => 0x03

/-- The operand bytes after the first byte: the formats of R81, the value bytes of R88 and R89. -/
def Instr.operandBytes : Instr → List Byte
  | .bsClear r => leBytes 2 r.toNat
  | .bsCopy r s => leBytes 2 r.toNat ++ leBytes 2 s.toNat
  | .bsPushBit r bit => leBytes 2 r.toNat ++ [bit]
  | .bsPushByte r byte nbits => leBytes 2 r.toNat ++ [byte, nbits]
  | .bsPushSeq r s => leBytes 2 r.toNat ++ leBytes 2 s.toNat
  | .bsPop r => leBytes 2 r.toNat
  | .bsAt r index => leBytes 2 r.toNat ++ leBytes 8 index.toNat
  | .bsSize r => leBytes 2 r.toNat
  | .bsIter r => leBytes 2 r.toNat
  | .freqCount => []
  | .treeBuild => []
  | .tableDerive => []
  | .dataEncode => []
  | .tableLoad => []
  | .treeInsert sym r => sym :: leBytes 2 r.toNat
  | .treeFromTable => []
  | .treeDecode => []
  | .treeInit => []
  | .hefSerialize => []
  | .hefDeserialize => []
  | .encodeInput => []
  | .decodeBlob => []
  | .csrRead n => [n]
  | .varintTag0 v => leBytes 1 v.toNat
  | .varintTag1 v => leBytes 2 v.toNat
  | .varintTag2 v => leBytes 4 v.toNat
  | .varintTag3 v => leBytes 8 v.toNat

/-- The bytes of an instruction. -/
def encode (i : Instr) : List Byte := i.opcode :: i.operandBytes

end Sys2Proof
end

