-- ==== Sys2Proof/Machine/State.lean ====
section
/-! DEFINITION. The state of the core (spec/10_state.md R20, the spec's complete list), the host's
interactions (R47), the ways a step stops, and the state after reset (R49). -/

namespace Sys2Proof.Machine

/-- Why the machine stops. Closed; the spec's own faults `F_*` are no stops but next states. -/
inductive Fault where
  /-- Raised by the tree walks (TABLE.DERIVE, TREE.INSERT, TREE.FROM_TABLE, TREE.DECODE and the
  composites over them) when a node index lies outside the arena or a walk does not end. R31 and R33
  exclude such an arena, so no run from reset meets it. Safe (log 11). -/
  | corruptArena
  deriving DecidableEq, Repr

/-- Why a step has no meaning. Closed. -/
inductive Refusal where
  /-- Raised by exec's arms for an instruction without a meaning. Safe. No arm of this model uses it. -/
  | notModelled (mnemonic : String)
  /-- Raised when a waiting host load is longer than its buffer's capacity: "not a move the host has"
  (R47, U28). Safe (log 5). -/
  | hostLoadTooLong
  deriving DecidableEq, Repr

/-- How a command ends before its last statement: a `raise` (R15), or the model's own stop. -/
inductive Halt where
  /-- `raise E_x` or `raise F_x` -/
  | raise (r : Raise)
  /-- the model's own stop -/
  | stuck (f : Fault)
  deriving DecidableEq, Repr

/-- What the pseudocode of a rule answers: a value, or how it ended before. -/
abbrev Res (α : Type) := Except Halt α

/-- The transactions the core can be asked for, between commands: the host interactions of R47, and
the reader transaction of log 4. -/
inductive Request where
  /-- HostLoadIn -/
  | loadIn (l : List Byte)
  /-- HostLoadOut -/
  | loadOut (l : List Byte)
  /-- HostLoadBlob -/
  | loadBlob (l : List Byte)
  /-- HostReadIn -/
  | readIn
  /-- HostReadOut -/
  | readOut
  /-- HostReadBlob -/
  | readBlob
  /-- HostCommand -/
  | command (packet : List Byte)
  /-- HostReset -/
  | reset
  /-- the reader primitive `read_varint` (R174) run alone: no move of the host (log 4) -/
  | readVarint
  deriving DecidableEq, Repr

/-- The state of the core (R20). The last four fields are the model's own (logs 1, 2, 3, 6). -/
structure State where
  /-- `CODE[s]` = `BS[s]`, s in 0..255 (R25, R37) -/
  code : Vector BitSeq 256
  /-- `PATH` = `BS[256]` (R25) -/
  path : BitSeq
  /-- `CODES` = `BS[257]` (R25, R38) -/
  codes : BitSeq
  /-- `DATA` = `BS[258]` (R25) -/
  data : BitSeq
  /-- `TMP0..TMP3` = `BS[259..262]` (R25) -/
  tmp : Vector BitSeq 4
  /-- `FREQ[s]` (R28) -/
  freq : Vector Nat 256
  /-- `SORT`, ascending by `(freq, seq)` (R29, log 12) -/
  sort : List SortEntry
  /-- `SEQ` (R29) -/
  seq : Nat
  /-- `NODE`, `NODE_COUNT`, `ROOT_VALID`, `ROOT` (R30 to R35) -/
  arena : Arena
  /-- `CODE_VALID[s]` (R37) -/
  codeValid : Vector Bool 256
  /-- `TA_N` (R38) -/
  taN : Nat
  /-- `TA_SYM[i]` (R38) -/
  taSym : Vector Byte 256
  /-- `TA_LEN[i]` (R38) -/
  taLen : Vector Byte 256
  /-- `IN`, and `IN_LEN` its length (R39) -/
  inBuf : List Byte
  /-- `OUT`, and `OUT_LEN` its length (R40) -/
  outBuf : List Byte
  /-- `BLOB`, and `BLOB_LEN` its length (R41) -/
  blob : List Byte
  /-- `STATUS` (R42) -/
  status : Status
  /-- `FAULT` (R43) -/
  fault : Bool
  /-- `FAULT_CAUSE` (R43), `none` for 0x00 -/
  faultCause : Option FaultCode
  /-- `CUR` (R44) -/
  cur : Nat
  /-- the open parameters of R9, constant in every run (log 3) -/
  caps : Capacities
  /-- the interactions not yet served, oldest first (log 1) -/
  pending : List Request
  /-- what the last transaction returned (R84, log 2) -/
  response : List Byte
  /-- how many times unspecified state has been drawn (R229, log 6) -/
  draws : Nat
  deriving DecidableEq, Repr

/-- The state right after reset (R49, R250), with the spec's default capacities (R9) and nothing
waiting (log 1). -/
def State.reset : State where
  code := Vector.replicate 256 .empty
  path := .empty
  codes := .empty
  data := .empty
  tmp := Vector.replicate 4 .empty
  freq := Vector.replicate 256 0
  sort := []
  seq := 0
  arena := ⟨[], none⟩
  codeValid := Vector.replicate 256 false
  taN := 0
  taSym := Vector.replicate 256 0
  taLen := Vector.replicate 256 0
  inBuf := []
  outBuf := []
  blob := []
  status := .ok
  fault := false
  faultCause := none
  cur := 0
  caps := Config.defaultCaps
  pending := []
  response := []
  draws := 0

end Sys2Proof.Machine
end

