-- ==== Sys2Proof/Machine/Blocks.lean ====
section
/-! DEFINITION. BitSequence values at block level (spec/10_state.md R21 to R24, spec/40_bitsequence.md
R115 to R127): what each operation does to `(blocks, fill)`, and the bit lists and packings that say
what a value means (spec/00_scope.md R12, R13). `W` = 64. -/

namespace Sys2Proof

/-- `ceil8(n)` (R10). -/
def ceil8 (n : Nat) : Nat := (n + 7) / 8

/-- The number whose binary digits, most significant first, are `l`. -/
def bitsToNat (l : List Bool) : Nat := l.foldl (fun a b => 2 * a + b.toNat) 0

/-- Word `j` of a bit list cut into `w`-bit words, list position 0 at the most significant bit and
positions past the end 0 (R13 for bytes, R24 for blocks). -/
def packWord (w : Nat) (l : List Bool) (j : Nat) : BitVec w :=
  let tail := l.drop (w * j)
  BitVec.ofNat w (bitsToNat ((List.range w).map fun i => tail.getD i false))

/-- The first `n` words of a bit list cut into `w`-bit words. -/
def packWords (w : Nat) (l : List Bool) (n : Nat) : List (BitVec w) :=
  (List.range n).map (packWord w l)

/-- The first `n` bits of a word list, most significant bit of word 0 first (R13, R23). -/
def unpackWords {w : Nat} (words : List (BitVec w)) (n : Nat) : List Bool :=
  (List.range n).map fun k => (words.getD (k / w) 0).getMsbD (k % w)

/-- `pack(l)` (R13). -/
def pack (l : List Bool) : List Byte := packWords 8 l (ceil8 l.length)

/-- `unpack(bytes, n)` (R13). -/
def unpack (bytes : List Byte) (n : Nat) : List Bool := unpackWords bytes n

/-- The last block, the one `fill` is about. -/
def BitSeq.lastBlock (v : BitSeq) : Word := v.blocks.getLastD 0

/-- The invariants I1, I2, I4 of a BitSequence value (R22); I3 is `BitSeq.size`. -/
abbrev BitSeq.Wf (v : BitSeq) : Prop :=
  v.blocks ≠ [] ∧ v.fill ≤ 64 ∧ (v.fill = 0 → v.blocks.length = 1) ∧
    v.lastBlock.toNat % 2 ^ (64 - v.fill) = 0

/-- `size(v)` (R22 I3, R23). -/
def BitSeq.size (v : BitSeq) : Nat := (v.blocks.length - 1) * 64 + v.fill

/-- `bits(v)` (R23). -/
def BitSeq.bits (v : BitSeq) : List Bool := unpackWords v.blocks v.size

/-- How many blocks a list of `n` bits takes: `max(1, ceil(n / W))` (R24). -/
def blockCount (n : Nat) : Nat := max 1 ((n + 63) / 64)

/-- `mk(l)` (R24): the value whose bits are `l`. -/
def BitSeq.ofBits (l : List Bool) : BitSeq :=
  ⟨packWords 64 l (blockCount l.length), l.length - (blockCount l.length - 1) * 64⟩

/-- `blocks[last] <- blocks[last] OR w` (R115, R117, R120). -/
def orLast (blocks : List Word) (w : Word) : List Word :=
  blocks.dropLast ++ [blocks.getLastD 0 ||| w]

/-- The first statement of R115 and R117: a full last block gets a new zero block after it. -/
def BitSeq.openBlock (v : BitSeq) : BitSeq :=
  if v.fill = 64 then ⟨v.blocks ++ [0], 0⟩ else v

/-- `push_bit(v, b)`, block-level (R115). -/
def BitSeq.pushBit (v : BitSeq) (b : Bool) : BitSeq :=
  let v := v.openBlock
  ⟨orLast v.blocks ((BitVec.ofBool b).setWidth 64 <<< (63 - v.fill)), v.fill + 1⟩

/-- `byte[7 : 8-n]`, the top `n` bits of a byte as a number (R117). -/
def topBits (byte : Byte) (n : Nat) : Nat := byte.toNat / 2 ^ (8 - n)

/-- `push_byte(v, byte, n)`, block-level (R117). -/
def BitSeq.pushByte (v : BitSeq) (byte : Byte) (n : Nat) : BitSeq :=
  if n = 0 then v
  else
    let x : Word := BitVec.ofNat 64 (topBits byte n)
    let v := v.openBlock
    let rem := 64 - v.fill
    if n ≤ rem then ⟨orLast v.blocks (x <<< (rem - n)), v.fill + n⟩
    else
      let lo : Word := BitVec.ofNat 64 (x.toNat % 2 ^ (n - rem))
      ⟨orLast v.blocks (x >>> (n - rem)) ++ [lo <<< (64 - (n - rem))], n - rem⟩

/-- The loop of R120: merges the operand's blocks, shifted right by the receiver's fill `f`, into the
receiver's blocks. `oFill` is the fill of the operand's last block. -/
def mergeBlocks (f oFill : Nat) (blocks : List Word) : List Word → List Word
  | [] => blocks
  | b :: rest =>
    let valid := if rest = [] then oFill else 64
    let merged := orLast blocks (b >>> f)
    mergeBlocks f oFill (if valid > 64 - f then merged ++ [b <<< (64 - f)] else merged) rest

/-- `push_seq(v, o)`, block-level (R120). -/
def BitSeq.pushSeq (v o : BitSeq) : BitSeq :=
  if o.size = 0 then v
  else if v.size = 0 then o
  else if v.fill = 64 then ⟨v.blocks ++ o.blocks, o.fill⟩
  else
    let total := v.size + o.size
    ⟨mergeBlocks v.fill o.fill v.blocks o.blocks, total - ((total + 63) / 64 - 1) * 64⟩

/-- `pop(v)`, block-level, for a value that is not empty (R124). -/
def BitSeq.pop (v : BitSeq) : BitSeq :=
  let fill := v.fill - 1
  let cleared := v.blocks.dropLast ++ [v.lastBlock &&& ~~~((1 : Word) <<< (63 - fill))]
  if fill = 0 ∧ v.blocks.length > 1 then ⟨v.blocks.dropLast, 64⟩ else ⟨cleared, fill⟩

/-- `at(v, i)`, for an index below the size (R127). -/
def BitSeq.at (v : BitSeq) (i : Nat) : Bool := (v.blocks.getD (i / 64) 0).getMsbD (i % 64)

end Sys2Proof
end

