-- ==== Sys2Proof/Machine/Flags.lean ====
section
/-! DEFINITION. The status codes as bytes (spec/60_exceptions.md R221) and every update of STATUS,
FAULT and FAULT_CAUSE (R224 to R227). The core has no other flag (spec/10_state.md R43). -/

namespace Sys2Proof

/-- The code of a call error (R221). -/
def CallError.byte : CallError → Byte
  | .badTag => 0x01
  | .truncated => 0x02
  | .remainder => 0x03
  | .alphabet => 0x04
  | .capacity => 0x05

/-- The code of a fault (R221). -/
def FaultCode.byte : FaultCode → Byte
  | .popEmpty => 0x10
  | .index => 0x11
  | .numBits => 0x12
  | .tableConflict => 0x13
  | .dupSymbol => 0x14
  | .badStream => 0x15
  | .illegalCmd => 0x16
  | .noRoot => 0x17
  | .noCode => 0x18

/-- The status byte (R42, R221). -/
def Status.byte : Status → Byte
  | .ok => 0x00
  | .callError e => e.byte
  | .fault f => f.byte
  | .faulted => 0x1F

namespace Machine

/-- FAULT_CAUSE as a register: 0x00 while nothing has faulted (R43, R45). -/
def causeByte : Option FaultCode → Byte
  | none => 0x00
  | some f => f.byte

/-- The flags after a call error: STATUS only (R224). -/
def State.flagCallError (s : State) (e : CallError) : State := { s with status := .callError e }

/-- The flags after a fault: STATUS, FAULT, and FAULT_CAUSE if FAULT was 0 (R225). -/
def State.flagFault (s : State) (f : FaultCode) : State :=
  { s with
    status := .fault f
    fault := true
    faultCause := if s.fault then s.faultCause else some f }

/-- The flags after a refusal: STATUS only (R226). -/
def State.flagFaulted (s : State) : State := { s with status := .faulted }

/-- The flags after a command that reached its end: STATUS only (R227). -/
def State.flagOk (s : State) : State := { s with status := .ok }

end Machine

end Sys2Proof
end

