-- ==== Sys2Proof/Machine/Operands.lean ====
section
/-! DEFINITION. The operand forms: bit-sequence registers by number (spec/10_state.md R25), symbols as
table indexes (R37), control register numbers (R45), capacities (spec/00_scope.md R9), and 64-bit
results (spec/30_encoding.md R84). -/

namespace Sys2Proof

/-- Whether a capacity allows `n` elements (R9). -/
def capAllows (cap : Option Nat) (n : Nat) : Bool :=
  match cap with
  | none => true
  | some c => decide (n ≤ c)

/-- The part of a list that a capacity allows. -/
def capTake {α : Type} (cap : Option Nat) (l : List α) : List α :=
  match cap with
  | none => l
  | some c => l.take c

/-- The constraints of R9 on finite capacities. -/
abbrev Capacities.Legal (c : Capacities) : Prop :=
  c.inCap.all (· < 2 ^ 64) = true ∧ c.blobCap.all (· < 2 ^ 60) = true ∧
    c.bsCap.all (· < 2 ^ 64) = true

/-- `zext_64(v)` (R10), defined below 2^64; above, a free value (log 9). -/
def zext64 (v : Nat) : BitVec 64 := if v < 2 ^ 64 then BitVec.ofNat 64 v else Config.wide64 v

/-- A 64-bit result as the 8 bytes of a response (R84). -/
def read64 (v : Nat) : List Byte := leBytes 8 (zext64 v).toNat

namespace Machine

/-- `BS[r]` (R14, R25). The numbers from 263 on name no register and are illegal operands (R86 d). -/
def State.reg (s : State) (r : Nat) : BitSeq :=
  if h : r < 256 then s.code[r]
  else if r = 256 then s.path
  else if r = 257 then s.codes
  else if r = 258 then s.data
  else if h : r - 259 < 4 then s.tmp[r - 259]
  else .empty

/-- `BS[r] <- v` (R14, R25, R27). -/
def State.setReg (s : State) (r : Nat) (v : BitSeq) : State :=
  if h : r < 256 then { s with code := s.code.set r v h }
  else if r = 256 then { s with path := v }
  else if r = 257 then { s with codes := v }
  else if r = 258 then { s with data := v }
  else if h : r - 259 < 4 then { s with tmp := s.tmp.set (r - 259) v h }
  else s

/-- `CODE[sym]` (R37). -/
def State.codeOf (s : State) (sym : Byte) : BitSeq := s.code[sym.toNat]'sym.isLt

/-- `CODE_VALID[sym]` (R37). -/
def State.validOf (s : State) (sym : Byte) : Bool := s.codeValid[sym.toNat]'sym.isLt

/-- `CODE[sym] <- v; CODE_VALID[sym] <- 1` (R150, R188). -/
def State.setCode (s : State) (sym : Byte) (v : BitSeq) : State :=
  { s with
    code := s.code.set sym.toNat v sym.isLt
    codeValid := s.codeValid.set sym.toNat true sym.isLt }

/-- The empty code table: every `CODE_VALID[s] <- 0` and `BS[s] <- ([0], 0)` (R150, R188). -/
def State.clearTable (s : State) : State :=
  { s with
    code := Vector.replicate 256 .empty
    codeValid := Vector.replicate 256 false }

/-- The alphabet, ascending: every symbol whose CODE_VALID is 1 (R37). -/
def State.alphabet (s : State) : List Byte :=
  (s.codeValid.toList.zipIdx.filter Prod.fst).map fun x => BitVec.ofNat 8 x.2

/-- The entries `(TA_SYM[i], TA_LEN[i])`, i in `0..TA_N-1` (R38). -/
def State.taEntries (s : State) : List (Byte × Byte) :=
  (s.taSym.toList.zip s.taLen.toList).take s.taN

/-- A list of at most 256 bytes as a tree array, 0 past its end (R181, R185). -/
def treeArray (l : List Byte) : Vector Byte 256 := Vector.ofFn fun i => l.getD i.val 0

/-- A bit operand (R82). -/
def bitOperand (b : Byte) : Bool := decide (b.toNat = 1)

/-- The value of control register `n` as a number, none for a number not in R45. TABLE_COUNT is
computed, ROOT reads 0 when ROOT_VALID = 0. -/
def State.csr (s : State) (n : Byte) : Option Nat :=
  match n.toNat with
  | 0x00 => some s.status.byte.toNat
  | 0x01 => some s.fault.toNat
  | 0x02 => some (causeByte s.faultCause).toNat
  | 0x03 => some s.inBuf.length
  | 0x04 => some s.outBuf.length
  | 0x05 => some s.blob.length
  | 0x06 => some s.cur
  | 0x07 => some s.arena.nodes.length
  | 0x08 => some s.arena.root.isSome.toNat
  | 0x09 => some (s.arena.root.getD 0)
  | 0x0A => some s.seq
  | 0x0B => some s.sort.length
  | 0x0C => some s.taN
  | 0x0D => some s.alphabet.length
  | 0x10 => some Config.blockWidth
  | 0x11 => some Config.symBits
  | 0x12 => some Config.nodeCap
  | 0x13 => some Config.nbs
  | _ => none

end Machine

end Sys2Proof
end

