-- ==== Sys2Proof/Machine/Arena.lean ====
section
/-! DEFINITION. The tree arena and the sorter (spec/10_state.md R29 to R34, spec/41_codetree.md R142
to R146, R153, R157): allocation, insertion of a path, the merge loop, the walks. -/

namespace Sys2Proof

/-- The child indexes of a node (R30). -/
def Node.children : Node → List Nat
  | .leaf _ _ => []
  | .internal l r _ => l.toList ++ r.toList

/-- The child of an internal node that a bit selects: left on 0, right on 1 (R153, R157). -/
def Node.child (n : Node) (b : Bool) : Option Nat :=
  match n with
  | .leaf _ _ => none
  | .internal l r _ => if b then r else l

/-- Every child index that occurs in the arena. -/
def Arena.children (a : Arena) : List Nat := a.nodes.flatMap Node.children

/-- Ownership is hierarchical (R33), the root is an allocated node, and the arena is within
`NODE_CAP` (R30). That a leaf has no child (R31) is in the type. -/
abbrev Arena.Wf (a : Arena) : Prop :=
  a.nodes.length ≤ Config.nodeCap ∧ (∀ c ∈ a.children, c < a.nodes.length) ∧ a.children.Nodup ∧
    a.root.all (fun r => decide (r < a.nodes.length) && !a.children.contains r) = true

/-- The node reached from node `i` by a path of bits, if every step of it exists (R33). -/
def Arena.descend (a : Arena) : Nat → List Bool → Option Nat
  | i, [] => if i < a.nodes.length then some i else none
  | i, b :: rest =>
    match a.nodes[i]? with
    | none => none
    | some n =>
      match n.child b with
      | none => none
      | some c => a.descend c rest

/-- Entries of the sorter are ordered by `(freq, seq)` (R29). -/
abbrev SortEntry.Before (x y : SortEntry) : Prop :=
  x.freq < y.freq ∨ (x.freq = y.freq ∧ x.seq < y.seq)

/-- Puts an entry at its place in the ascending list that holds the sorter (R29, R143). -/
def insertEntry (e : SortEntry) : List SortEntry → List SortEntry
  | [] => [e]
  | x :: rest => if e.Before x then e :: x :: rest else x :: insertEntry e rest

/-- A sorter as R29 has it: ascending, at most 256 entries, no sequence number twice. -/
abbrev SorterWf (l : List SortEntry) : Prop :=
  l.Pairwise SortEntry.Before ∧ l.length ≤ 256 ∧ (l.map SortEntry.seq).Nodup

/-- The state TREE.BUILD works on: NODE, SORT, SEQ (R146). -/
structure Builder where
  /-- the allocated nodes -/
  nodes : List Node
  /-- SORT -/
  sort : List SortEntry
  /-- SEQ -/
  seq : Nat
  deriving DecidableEq, Repr

/-- `alloc` followed by `sort_insert(freq, node)` (R34, R143). R146 allocates at most 511 nodes, so the
check of R34 against NODE_CAP never fails here. -/
def Builder.add (b : Builder) (n : Node) (freq : Nat) : Builder :=
  ⟨b.nodes ++ [n], insertEntry ⟨freq, b.seq, b.nodes.length⟩ b.sort, b.seq + 1⟩

/-- The first loop of R146: one leaf per symbol of positive frequency, ascending. -/
def Builder.leaves (freq : List Nat) : Builder :=
  freq.zipIdx.foldl
    (fun b x => if 0 < x.1 then b.add (.leaf (BitVec.ofNat 8 x.2) x.1) x.1 else b) ⟨[], [], 0⟩

/-- The second loop of R146: while more than one entry is left, extract the two least, make the first
the left child and the second the right child of a new node, and insert it. -/
def Builder.merge : Nat → Builder → Builder
  | 0, b => b
  | fuel + 1, b =>
    match b.sort with
    | x :: y :: rest =>
      Builder.merge fuel
        ({ b with sort := rest }.add (.internal (some x.node) (some y.node) (x.freq + y.freq))
          (x.freq + y.freq))
    | _ => b

/-- Both loops of R146 over a frequency map. The merge loop runs once per entry but one. -/
def Builder.run (freq : List Nat) : Builder :=
  let b := Builder.leaves freq
  Builder.merge b.sort.length b

/-- `alloc(INTERNAL, 0, 0)` as the child of node `cur` that bit `b` selects (R34, R153). -/
def attachChild (nodes : List Node) (cur : Nat) (l r : Option Nat) (f : Nat) (b : Bool) :
    List Node :=
  let new := some nodes.length
  nodes.set cur (if b then .internal l new f else .internal new r f) ++ [.internal none none 0]

namespace Machine

/-- The walk of R153 along a code, creating missing children: the nodes, and where the code ends. -/
def walkPath (nodes : List Node) (cur : Nat) : List Bool → Res (List Node × Nat)
  | [] => .ok (nodes, cur)
  | b :: rest =>
    match nodes[cur]? with
    | none => .error (.stuck .corruptArena)
    | some (.leaf _ _) => .error (.raise (.fault .tableConflict))
    | some (.internal l r f) =>
      match (if b then r else l) with
      | some c => walkPath nodes c rest
      | none =>
        if nodes.length < Config.nodeCap then
          walkPath (attachChild nodes cur l r f b) nodes.length rest
        else .error (.raise (.call .capacity))

/-- TREE.INSERT's body on an arena (R153): the walk, then the final node becomes the leaf. -/
def insertCode (a : Arena) (sym : Byte) (code : List Bool) : Res Arena :=
  match a.root with
  | none => .error (.raise (.fault .noRoot))
  | some root => do
    let (nodes, last) ← walkPath a.nodes root code
    match nodes[last]? with
    | none => .error (.stuck .corruptArena)
    | some (.internal none none f) => .ok { a with nodes := nodes.set last (.leaf sym f) }
    | some _ => .error (.raise (.fault .tableConflict))

/-- TREE.INIT's arena: the bare root (R152). -/
def bareRoot : Arena := ⟨[.internal none none 0], some 0⟩

/-- The walk of R157 over the data bits, from node `cur`: the symbols of the leaves it meets. Bits that
end inside a code are dropped (R159); a bit that selects no child is F_BAD_STREAM (R160). -/
def decodeWalk (nodes : List Node) (root : Nat) : Nat → List Bool → Res (List Byte)
  | _, [] => .ok []
  | cur, b :: rest =>
    match nodes[cur]? with
    | some (.internal l r _) =>
      match (if b then r else l) with
      | none => .error (.raise (.fault .badStream))
      | some c =>
        match nodes[c]? with
        | none => .error (.stuck .corruptArena)
        | some (.leaf sym _) => do
          let out ← decodeWalk nodes root root rest
          .ok (sym :: out)
        | some (.internal _ _ _) => decodeWalk nodes root c rest
    | _ => .error (.stuck .corruptArena)

/-- The symbols TREE.DECODE appends (R157), with the single-node tree of R158. -/
def decodeBits (a : Arena) (bits : List Bool) : Res (List Byte) :=
  match a.root with
  | none => if bits = [] then .ok [] else .error (.raise (.fault .badStream))
  | some root =>
    match a.nodes[root]? with
    | none => .error (.stuck .corruptArena)
    | some (.leaf sym _) => .ok (bits.map fun _ => sym)
    | some (.internal _ _ _) => decodeWalk a.nodes root root bits

end Machine

end Sys2Proof
end

