-- ==== Sys2Proof/Machine/Free.lean ====
section
/-! DEFINITION. The working state a raise leaves unspecified (spec/60_exceptions.md R229): each piece
is drawn freely, `State.draws` counting the draws, and kept inside the invariants that R229 names
(notes/assumptions 6, 7, 22). A raw draw outside them is replaced by a value inside them, so that every
value inside can be drawn and no other. -/

namespace Sys2Proof.Machine

/-- A free register value: well-formed and within BS_CAP. -/
def drawSeq (caps : Capacities) (k r : Nat) : BitSeq :=
  .ofBits (capTake caps.bsCap (Config.freeBits k r))

/-- CODE[0..255] and CODE_VALID unspecified. -/
def State.drawTable (s : State) : State :=
  { s with
    code := Vector.ofFn fun i => drawSeq s.caps s.draws i.val
    codeValid := Vector.ofFn fun i => Config.freeValid s.draws i.val }

/-- PATH unspecified. -/
def State.drawPath (s : State) : State := { s with path := drawSeq s.caps s.draws 256 }

/-- CODES unspecified. -/
def State.drawCodes (s : State) : State := { s with codes := drawSeq s.caps s.draws 257 }

/-- DATA unspecified. -/
def State.drawData (s : State) : State := { s with data := drawSeq s.caps s.draws 258 }

/-- TA_N, TA_SYM, TA_LEN unspecified, TA_N at most 256. -/
def State.drawTa (s : State) : State :=
  { s with
    taN := min 256 (Config.freeTaN s.draws)
    taSym := Vector.ofFn fun i => Config.freeTaSym s.draws i.val
    taLen := Vector.ofFn fun i => Config.freeTaLen s.draws i.val }

/-- CUR unspecified, at most BLOB_LEN. -/
def State.drawCur (s : State) : State :=
  { s with cur := min s.blob.length (Config.freeCur s.draws) }

/-- FREQ unspecified: any 64-bit counters. R229 names no bound on their sum. -/
def State.drawFreq (s : State) : State :=
  { s with freq := Vector.ofFn fun i => (Config.freeFreq s.draws i.val).toNat }

/-- SORT and SEQ unspecified: SORT a sorter as R29 has it (log 7), SEQ any 64-bit value. DESIGN CHOICE
(log 22): an entry's freq, seq and node are any natural numbers, past the widths of R29. -/
def State.drawSort (s : State) : State :=
  let raw := Config.freeSort s.draws
  { s with
    sort := if SorterWf raw then raw else []
    seq := (Config.freeSeq s.draws).toNat }

/-- NODE, NODE_COUNT, ROOT, ROOT_VALID unspecified, the arena hierarchical (log 7). DESIGN CHOICE (log 22): a
node's NFREQ is any natural number. -/
def State.drawArena (s : State) : State :=
  let raw : Arena := ⟨Config.freeNodes s.draws, Config.freeRoot s.draws⟩
  { s with arena := if raw.Wf then raw else ⟨[], none⟩ }

/-- One more draw made: the next one is independent of it. -/
def State.drawn (s : State) : State := { s with draws := s.draws + 1 }

/-- After a raise of TABLE.DERIVE (R229). -/
def State.afterTableDerive (s : State) : State := s.drawTable.drawPath.drawn

/-- After a raise of DATA.ENCODE (R229). -/
def State.afterDataEncode (s : State) : State := s.drawData.drawn

/-- After a raise of HEF.SERIALIZE (R229). -/
def State.afterHefSerialize (s : State) : State := s.drawTa.drawCodes.drawn

/-- After a raise of HEF.DESERIALIZE (R229). -/
def State.afterHefDeserialize (s : State) : State := s.drawCur.drawTa.drawCodes.drawData.drawn

/-- After a raise of TABLE.LOAD (R229). -/
def State.afterTableLoad (s : State) : State := s.drawTable.drawn

/-- After a raise of TREE.FROM_TABLE (R229). -/
def State.afterTreeFromTable (s : State) : State := s.drawArena.drawn

/-- After a raise of ENCODE: everything ENCODE writes but BLOB (R190, R229). -/
def State.afterEncode (s : State) : State :=
  s.drawFreq.drawSort.drawArena.drawTable.drawPath.drawData.drawTa.drawCodes.drawn

/-- After a raise of DECODE: everything DECODE writes but OUT (R192, R229). -/
def State.afterDecode (s : State) : State :=
  s.drawCur.drawTa.drawCodes.drawData.drawTable.drawArena.drawn

/-- After a raise of the reader transaction: CUR, as HEF.DESERIALIZE leaves it (R229, log 4). -/
def State.afterReader (s : State) : State := s.drawCur.drawn

end Sys2Proof.Machine
end

