-- ==== Sys2Proof/Machine/Ops.lean ====
section
/-! DEFINITION. The shared operations: the buffers (spec/20_memory.md R60 to R62), pushes checked
against BS_CAP (spec/40_bitsequence.md R112), what a raise and a refusal do (spec/60_exceptions.md
R224 to R226), and the prologue and epilogue of every command (R227). -/

namespace Sys2Proof

/-- A buffer as address and byte pairs, addresses rising from 0 (R60): the one-byte view of a list. -/
def bufferCells (b : List Byte) : List Host.Cell := b.zipIdx.map fun x => (x.2, x.1)

/-- A buffer's cells are in canonical form: addresses strictly rising, and exactly those below the
length exist (R60). -/
def Memory.wf (cells : List Host.Cell) : Bool :=
  decide (cells.map Prod.fst = List.range cells.length)

/-- One byte of a buffer, none at or past its length (R60). -/
def bufferAt (b : List Byte) (addr : Nat) : Option Byte := b[addr]?

/-- `MemRead(SPACE, addr, n)`, for `addr + n <= SPACE_LEN` (R61). -/
def memRead (b : List Byte) (addr n : Nat) : List Byte := (b.drop addr).take n

/-- `MemWrite` in its append shape (R62). -/
def memAppend (b l : List Byte) : List Byte := b ++ l

namespace Machine

/-- `push_bit` into a register, checked against BS_CAP (R112). -/
def pushBitCap (caps : Capacities) (v : BitSeq) (b : Bool) : Res BitSeq :=
  if capAllows caps.bsCap (v.size + 1) then .ok (v.pushBit b)
  else .error (.raise (.call .capacity))

/-- `push_byte` into a register, checked against BS_CAP (R112). -/
def pushByteCap (caps : Capacities) (v : BitSeq) (byte : Byte) (n : Nat) : Res BitSeq :=
  if capAllows caps.bsCap (v.size + n) then .ok (v.pushByte byte n)
  else .error (.raise (.call .capacity))

/-- `push_seq` into a register, checked against BS_CAP (R112). -/
def pushSeqCap (caps : Capacities) (v o : BitSeq) : Res BitSeq :=
  if capAllows caps.bsCap (v.size + o.size) then .ok (v.pushSeq o)
  else .error (.raise (.call .capacity))

/-- `assert c else raise r` (R15). -/
def ensure (c : Bool) (r : Raise) : Res Unit := if c then .ok () else .error (.raise r)

/-- TAKING AN EXCEPTION: what `raise` does to STATUS, FAULT and FAULT_CAUSE, and its one-byte response
(R224, R225). There is no handler, no saved state and no mode change, and no return (R224, R232). -/
def State.raise (s : State) (r : Raise) : State :=
  match r with
  | .call e => { s.flagCallError e with response := [e.byte] }
  | .fault f => { s.flagFault f with response := [f.byte] }

/-- The refusal of any command while FAULT = 1 (R226). -/
def State.refuse (s : State) : State := { s.flagFaulted with response := [Status.faulted.byte] }

/-- The epilogue of a command that reached its end with result bytes `result` (R84, R227). -/
def State.finish (s : State) (result : List Byte) : State :=
  { s.flagOk with response := Status.ok.byte :: result }

/-- HostReset (R49, R250): every piece of the core's state at its reset value. The capacities, the
waiting interactions and the draw counter are no state of the core (logs 1, 3, 6, 15). -/
def State.hostReset (s : State) : State :=
  { State.reset with caps := s.caps, pending := s.pending, draws := s.draws }

/-- The prologue (R227) for a packet with no legal instruction (R86): refused while FAULT = 1,
otherwise F_ILLEGAL_CMD. -/
def State.illegalPacket (s : State) : State :=
  if s.fault then s.refuse else s.raise (.fault .illegalCmd)

/-- Runs an instruction's rule with the common prologue and epilogue (R227). `body` answers the state
and the result bytes; `unspecified` is what a raise leaves of the state before the command (R229). -/
def runCommand (i : Instr) (body : State → Res (State × List Byte)) (unspecified : State → State)
    (s : State) : Host.Outcome State Fault Refusal :=
  if s.fault then .next s.refuse
  else
    match i.problem with
    | some _ => .next (s.raise (.fault .illegalCmd))
    | none =>
      match body s with
      | .ok (t, result) => .next (t.finish result)
      | .error (.raise r) => .next ((unspecified s).raise r)
      | .error (.stuck f) => .fault f

/-- Runs a command without result bytes (R84). -/
def runStage (i : Instr) (stage : State → Res State) (unspecified : State → State) (s : State) :
    Host.Outcome State Fault Refusal :=
  runCommand i (fun s => (stage s).map fun t => (t, [])) unspecified s

end Machine

end Sys2Proof
end

