-- ==== Sys2Proof/Machine/Container.lean ====
section
/-! DEFINITION. The container's encodings (spec/30_encoding.md R88 to R98) and the reader and writer
primitives of the codec (spec/42_hef_codec.md R170 to R175). A reader takes BLOB and a cursor and
answers what it read with the cursor after it. -/

namespace Sys2Proof.Machine

/-- `varint(v)`: the smallest form that holds the number (R90, R171). -/
def varint (v : Nat) : Res (List Byte) :=
  if v ≤ 255 then .ok (0x00 :: leBytes 1 v)
  else if v ≤ 65535 then .ok (0x01 :: leBytes 2 v)
  else if v ≤ 4294967295 then .ok (0x02 :: leBytes 4 v)
  else if v ≤ 2 ^ 64 - 1 then .ok (0x03 :: leBytes 8 v)
  else .error (.raise (.call .capacity))

/-- `read_bytes(k)`: bounds-checked before anything is read (R68, R172). -/
def readBytes (blob : List Byte) (cur k : Nat) : Res (List Byte × Nat) :=
  if cur + k ≤ blob.length then .ok (memRead blob cur k, cur + k)
  else .error (.raise (.call .truncated))

/-- `read_u8()` (R173). -/
def readU8 (blob : List Byte) (cur : Nat) : Res (Byte × Nat) := do
  let (l, cur) ← readBytes blob cur 1
  .ok (l.headD 0, cur)

/-- `read_varint()`: the tag is checked before the value bytes are looked for (R91, R174). -/
def readVarint (blob : List Byte) (cur : Nat) : Res (Nat × Nat) := do
  let (t, cur) ← readU8 blob cur
  ensure (decide (t.toNat ≤ 3)) (.call .badTag)
  let (l, cur) ← readBytes blob cur (2 ^ t.toNat)
  .ok (leNat l, cur)

/-- `read_bits(k)`: the pad bits of the last byte are ignored (R100, R175). -/
def readBits (blob : List Byte) (cur k : Nat) : Res (List Bool × Nat) := do
  let (l, cur) ← readBytes blob cur (ceil8 k)
  .ok (unpack l k, cur)

/-- The seven fields of the container, in order, nothing between them (R92 to R97): symbols, lengths,
concatenated code bits and data bits. -/
def containerBytes (syms lens : List Byte) (codeBits dataBits : List Bool) : Res (List Byte) := do
  let alphabet ← varint syms.length
  let whole ← varint (dataBits.length / 8)
  .ok (alphabet ++ syms ++ lens ++ pack codeBits ++ whole
    ++ [BitVec.ofNat 8 (dataBits.length % 8)] ++ pack dataBits)

end Sys2Proof.Machine
end

