-- ==== Sys2Proof/Machine/BitSequence.lean ====
section
/-! DEFINITION. The BS.* commands (spec/40_bitsequence.md R113 to R129). On a raise nothing but the
flags changes (R110, R229). -/

namespace Sys2Proof.Machine

/-- BS.CLEAR r (R113). -/
def execBsClear (r : BitVec 16) (s : State) : Host.Outcome State Fault Refusal :=
  runStage (.bsClear r) (fun s => .ok (s.setReg r.toNat .empty)) id s

/-- BS.COPY r, s: destination `r`, source `o` (R114). -/
def execBsCopy (r o : BitVec 16) (s : State) : Host.Outcome State Fault Refusal :=
  runStage (.bsCopy r o) (fun s => .ok (s.setReg r.toNat (s.reg o.toNat))) id s

/-- BS.PUSH_BIT r, bit (R116). -/
def execBsPushBit (r : BitVec 16) (bit : Byte) (s : State) : Host.Outcome State Fault Refusal :=
  runStage (.bsPushBit r bit)
    (fun s => do
      let v ← pushBitCap s.caps (s.reg r.toNat) (bitOperand bit)
      .ok (s.setReg r.toNat v))
    id s

/-- BS.PUSH_BYTE r, byte, nbits (R118). -/
def execBsPushByte (r : BitVec 16) (byte nbits : Byte) (s : State) :
    Host.Outcome State Fault Refusal :=
  runStage (.bsPushByte r byte nbits)
    (fun s => do
      ensure (decide (nbits.toNat ≤ 8)) (.fault .numBits)
      let v ← pushByteCap s.caps (s.reg r.toNat) byte nbits.toNat
      .ok (s.setReg r.toNat v))
    id s

/-- BS.PUSH_SEQ r, s: receiver `r`, operand `o`, read before the receiver is written (R121, R123). -/
def execBsPushSeq (r o : BitVec 16) (s : State) : Host.Outcome State Fault Refusal :=
  runStage (.bsPushSeq r o)
    (fun s => do
      let v ← pushSeqCap s.caps (s.reg r.toNat) (s.reg o.toNat)
      .ok (s.setReg r.toNat v))
    id s

/-- BS.POP r (R125). -/
def execBsPop (r : BitVec 16) (s : State) : Host.Outcome State Fault Refusal :=
  runStage (.bsPop r)
    (fun s => do
      ensure (decide (0 < (s.reg r.toNat).size)) (.fault .popEmpty)
      .ok (s.setReg r.toNat (s.reg r.toNat).pop))
    id s

/-- BS.AT r, index: one result byte (R84, R127). -/
def execBsAt (r : BitVec 16) (index : BitVec 64) (s : State) : Host.Outcome State Fault Refusal :=
  runCommand (.bsAt r index)
    (fun s => do
      ensure (decide (index.toNat < (s.reg r.toNat).size)) (.fault .index)
      .ok (s, [if (s.reg r.toNat).at index.toNat then 0x01 else 0x00]))
    id s

/-- BS.SIZE r: eight result bytes (R84, R128). -/
def execBsSize (r : BitVec 16) (s : State) : Host.Outcome State Fault Refusal :=
  runCommand (.bsSize r) (fun s => .ok (s, read64 (s.reg r.toNat).size)) id s

/-- BS.ITER r: the count, then the packed bits (R84, R129). -/
def execBsIter (r : BitVec 16) (s : State) : Host.Outcome State Fault Refusal :=
  runCommand (.bsIter r)
    (fun s => .ok (s, read64 (s.reg r.toNat).size ++ pack (s.reg r.toNat).bits)) id s

end Sys2Proof.Machine
end

