-- ==== Sys2Proof/Machine/CodeTree.lean ====
section
/-! DEFINITION. The CodeTree commands (spec/41_codetree.md R140 to R160). Each is a stage, a function
of the state that the composites ENCODE and DECODE share, and a meaning that runs the stage with the
prologue and epilogue (R227). -/

namespace Sys2Proof.Machine

/-- `FREQ[sym] <- FREQ[sym] + 1` (R140). -/
def countSymbol (freq : Vector Nat 256) (sym : Byte) : Vector Nat 256 :=
  freq.set sym.toNat (freq[sym.toNat]'sym.isLt + 1) sym.isLt

/-- FREQ.COUNT (R140). -/
def freqCountStage (s : State) : Res State :=
  .ok { s with freq := s.inBuf.foldl countSymbol (Vector.replicate 256 0) }

/-- TREE.BUILD (R146), with the empty map of R147 and the one-symbol map of R148. -/
def treeBuildStage (s : State) : Res State :=
  let b := Builder.run s.freq.toList
  match b.sort with
  | [] => .ok { s with arena := ⟨b.nodes, none⟩, sort := [], seq := b.seq }
  | e :: rest => .ok { s with arena := ⟨b.nodes, some e.node⟩, sort := rest, seq := b.seq }

/-- One side of `walk(i)` (R150): if the child exists, push its bit, walk it, pop the bit. -/
def visitChild (walk : Nat → State → Res State) (b : Bool) : Option Nat → State → Res State
  | none, s => .ok s
  | some c, s => do
    let p ← pushBitCap s.caps s.path b
    let s ← walk c { s with path := p }
    .ok { s with path := s.path.pop }

/-- `walk(i)` of R150: left before right. The fuel is the number of nodes, more than any path of a
hierarchical arena takes (R33, log 11). -/
def deriveWalk (nodes : List Node) : Nat → Nat → State → Res State
  | 0, _, _ => .error (.stuck .corruptArena)
  | fuel + 1, i, s =>
    match nodes[i]? with
    | none => .error (.stuck .corruptArena)
    | some (.leaf sym _) => .ok (s.setCode sym s.path)
    | some (.internal l r _) => do
      let s ← visitChild (deriveWalk nodes fuel) false l s
      visitChild (deriveWalk nodes fuel) true r s

/-- TABLE.DERIVE (R150). -/
def tableDeriveStage (s : State) : Res State :=
  let s := { s.clearTable with path := .empty }
  match s.arena.root with
  | none => .ok s
  | some root => deriveWalk s.arena.nodes s.arena.nodes.length root s

/-- TREE.INIT (R152). -/
def treeInitStage (s : State) : Res State := .ok { s with arena := bareRoot }

/-- TREE.INSERT (R153). -/
def treeInsertStage (sym : Byte) (code : BitSeq) (s : State) : Res State := do
  let a ← insertCode s.arena sym code.bits
  .ok { s with arena := a }

/-- TREE.FROM_TABLE (R155): TREE.INIT, then one insertion per entry, ascending. -/
def treeFromTableStage (s : State) : Res State := do
  let s ← treeInitStage s
  s.alphabet.foldlM (fun t sym => treeInsertStage sym (s.codeOf sym) t) s

/-- TREE.DECODE (R157): nothing is appended until the whole stream has been walked. -/
def treeDecodeStage (s : State) : Res State := do
  let out ← decodeBits s.arena s.data.bits
  ensure (capAllows s.caps.outCap (s.outBuf.length + out.length)) (.call .capacity)
  .ok { s with outBuf := memAppend s.outBuf out }

/-- FREQ.COUNT (R140). -/
def execFreqCount (s : State) : Host.Outcome State Fault Refusal :=
  runStage .freqCount freqCountStage id s

/-- TREE.BUILD (R146). -/
def execTreeBuild (s : State) : Host.Outcome State Fault Refusal :=
  runStage .treeBuild treeBuildStage id s

/-- TABLE.DERIVE (R150). -/
def execTableDerive (s : State) : Host.Outcome State Fault Refusal :=
  runStage .tableDerive tableDeriveStage State.afterTableDerive s

/-- TREE.INIT (R152). -/
def execTreeInit (s : State) : Host.Outcome State Fault Refusal :=
  runStage .treeInit treeInitStage id s

/-- TREE.INSERT sym, r (R153): on a raise the arena is as it was. -/
def execTreeInsert (sym : Byte) (r : BitVec 16) (s : State) : Host.Outcome State Fault Refusal :=
  runStage (.treeInsert sym r) (fun s => treeInsertStage sym (s.reg r.toNat) s) id s

/-- TREE.FROM_TABLE (R155). -/
def execTreeFromTable (s : State) : Host.Outcome State Fault Refusal :=
  runStage .treeFromTable treeFromTableStage State.afterTreeFromTable s

/-- TREE.DECODE (R157). -/
def execTreeDecode (s : State) : Host.Outcome State Fault Refusal :=
  runStage .treeDecode treeDecodeStage id s

end Sys2Proof.Machine
end

