-- ==== Sys2Proof/Machine/Codec.lean ====
section
/-! DEFINITION. The codec commands and the two entry points (spec/42_hef_codec.md R178 to R195), and
the reader primitive on the four varint rows (spec/30_encoding.md R88, spec/42_hef_codec.md R174). -/

namespace Sys2Proof.Machine

/-- One symbol of R178: its code, or the placeholder bit of R179 when the code is empty. -/
def encodeSymbol (s : State) (data : BitSeq) (sym : Byte) : Res BitSeq := do
  ensure (s.validOf sym) (.fault .noCode)
  if (s.codeOf sym).size = 0 then pushBitCap s.caps data false
  else pushSeqCap s.caps data (s.codeOf sym)

/-- DATA.ENCODE (R178). -/
def dataEncodeStage (s : State) : Res State := do
  let data ← s.inBuf.foldlM (encodeSymbol s) .empty
  .ok { s with data := data }

/-- HEF.SERIALIZE (R181): BLOB is replaced in the last statement, after every check (R184). -/
def hefSerializeStage (s : State) : Res State := do
  let syms := s.alphabet
  ensure (syms.all fun sym => decide ((s.codeOf sym).size ≤ 255)) (.call .capacity)
  let lens := syms.map fun sym => BitVec.ofNat 8 (s.codeOf sym).size
  let codes ← syms.foldlM (fun acc sym => pushSeqCap s.caps acc (s.codeOf sym)) .empty
  let buf ← containerBytes syms lens codes.bits s.data.bits
  ensure (capAllows s.caps.blobCap buf.length) (.call .capacity)
  .ok { s with
    taN := syms.length
    taSym := treeArray syms
    taLen := treeArray lens
    codes := codes
    blob := buf }

/-- HEF.DESERIALIZE (R185): a pure parser (R187), checks in field order (R228). -/
def hefDeserializeStage (s : State) : Res State := do
  let (alphabet, cur) ← readVarint s.blob 0
  ensure (decide (alphabet ≤ 256)) (.call .alphabet)
  let (syms, cur) ← readBytes s.blob cur alphabet
  let (lens, cur) ← readBytes s.blob cur alphabet
  let total := (lens.map BitVec.toNat).sum
  ensure (capAllows s.caps.bsCap total) (.call .capacity)
  let (codeBits, cur) ← readBits s.blob cur total
  let (whole, cur) ← readVarint s.blob cur
  let (rem, cur) ← readU8 s.blob cur
  ensure (decide (rem.toNat ≤ 7)) (.call .remainder)
  let count := 8 * whole + rem.toNat
  ensure (capAllows s.caps.bsCap count) (.call .capacity)
  let (dataBits, cur) ← readBits s.blob cur count
  .ok { s with
    cur := cur
    taN := alphabet
    taSym := treeArray syms
    taLen := treeArray lens
    codes := .ofBits codeBits
    data := .ofBits dataBits }

/-- The loop of R188 over the entries, with the offset into CODES. -/
def loadEntries (codes : BitSeq) : Nat → List (Byte × Byte) → State → Res State
  | _, [], s => .ok s
  | off, (sym, len) :: rest, s => do
    ensure (!s.validOf sym) (.fault .dupSymbol)
    ensure (decide (off + len.toNat ≤ codes.size)) (.fault .index)
    let code := (List.range len.toNat).map fun j => codes.at (off + j)
    loadEntries codes (off + len.toNat) rest (s.setCode sym (.ofBits code))

/-- TABLE.LOAD (R188). -/
def tableLoadStage (s : State) : Res State := loadEntries s.codes 0 s.taEntries s.clearTable

/-- ENCODE (R190): the five stages in order, without their prologues, stopping at the first raise. -/
def encodeStage (s : State) : Res State := do
  let s ← freqCountStage s
  let s ← treeBuildStage s
  let s ← tableDeriveStage s
  let s ← dataEncodeStage s
  hefSerializeStage s

/-- DECODE (R192): the four stages in order. -/
def decodeStage (s : State) : Res State := do
  let s ← hefDeserializeStage s
  let s ← tableLoadStage s
  let s ← treeFromTableStage s
  treeDecodeStage s

/-- The reader's step over a varint of `k` value bytes at CUR, as the whole of a transaction (log 4):
CUR moves past the element and its value is returned (R88, R172, R174). -/
def passVarint (k v : Nat) (s : State) : Res (State × List Byte) := do
  let (_, cur) ← readBytes s.blob s.cur (1 + k)
  .ok ({ s with cur := cur }, read64 v)

/-- DATA.ENCODE (R178). -/
def execDataEncode (s : State) : Host.Outcome State Fault Refusal :=
  runStage .dataEncode dataEncodeStage State.afterDataEncode s

/-- HEF.SERIALIZE (R181). -/
def execHefSerialize (s : State) : Host.Outcome State Fault Refusal :=
  runStage .hefSerialize hefSerializeStage State.afterHefSerialize s

/-- HEF.DESERIALIZE (R185). -/
def execHefDeserialize (s : State) : Host.Outcome State Fault Refusal :=
  runStage .hefDeserialize hefDeserializeStage State.afterHefDeserialize s

/-- TABLE.LOAD (R188). -/
def execTableLoad (s : State) : Host.Outcome State Fault Refusal :=
  runStage .tableLoad tableLoadStage State.afterTableLoad s

/-- ENCODE (R190). -/
def execEncode (s : State) : Host.Outcome State Fault Refusal :=
  runStage .encodeInput encodeStage State.afterEncode s

/-- DECODE (R192). -/
def execDecode (s : State) : Host.Outcome State Fault Refusal :=
  runStage .decodeBlob decodeStage State.afterDecode s

/-- VARINT.TAG0 met by the reader at CUR (R88, R174, log 4). -/
def execVarintTag0 (v : BitVec 8) (s : State) : Host.Outcome State Fault Refusal :=
  runCommand (.varintTag0 v) (passVarint 1 v.toNat) State.afterReader s

/-- VARINT.TAG1 met by the reader at CUR (R88, R174, log 4). -/
def execVarintTag1 (v : BitVec 16) (s : State) : Host.Outcome State Fault Refusal :=
  runCommand (.varintTag1 v) (passVarint 2 v.toNat) State.afterReader s

/-- VARINT.TAG2 met by the reader at CUR (R88, R174, log 4). -/
def execVarintTag2 (v : BitVec 32) (s : State) : Host.Outcome State Fault Refusal :=
  runCommand (.varintTag2 v) (passVarint 4 v.toNat) State.afterReader s

/-- VARINT.TAG3 met by the reader at CUR (R88, R174, log 4). -/
def execVarintTag3 (v : BitVec 64) (s : State) : Host.Outcome State Fault Refusal :=
  runCommand (.varintTag3 v) (passVarint 8 v.toNat) State.afterReader s

end Sys2Proof.Machine
end

