-- ==== Sys2Proof/Machine/System.lean ====
section
/-! DEFINITION. CSR.READ (spec/43_system.md R210 to R212). -/

namespace Sys2Proof.Machine

/-- CSR.READ n: STATUS is read before this command writes it (R210, R211). -/
def execCsrRead (n : Byte) (s : State) : Host.Outcome State Fault Refusal :=
  runCommand (.csrRead n)
    (fun s =>
      match s.csr n with
      | none => .error (.raise (.fault .illegalCmd))
      | some v => .ok (s, read64 v))
    id s

end Sys2Proof.Machine
end

