-- ==== Sys2Proof/Machine/Dispatch.lean ====
section
/-! DEFINITION. One arm per instruction: the meaning of each row of the opcode table. -/

namespace Sys2Proof.Machine

def exec (i : Instr) (s : State) : Host.Outcome State Fault Refusal :=
  match i with
  | .bsClear r => Sys2Proof.Machine.execBsClear r s
  | .bsCopy r o => Sys2Proof.Machine.execBsCopy r o s
  | .bsPushBit r bit => Sys2Proof.Machine.execBsPushBit r bit s
  | .bsPushByte r byte nbits => Sys2Proof.Machine.execBsPushByte r byte nbits s
  | .bsPushSeq r o => Sys2Proof.Machine.execBsPushSeq r o s
  | .bsPop r => Sys2Proof.Machine.execBsPop r s
  | .bsAt r index => Sys2Proof.Machine.execBsAt r index s
  | .bsSize r => Sys2Proof.Machine.execBsSize r s
  | .bsIter r => Sys2Proof.Machine.execBsIter r s
  | .freqCount => Sys2Proof.Machine.execFreqCount s
  | .treeBuild => Sys2Proof.Machine.execTreeBuild s
  | .tableDerive => Sys2Proof.Machine.execTableDerive s
  | .dataEncode => Sys2Proof.Machine.execDataEncode s
  | .tableLoad => Sys2Proof.Machine.execTableLoad s
  | .treeInsert sym r => Sys2Proof.Machine.execTreeInsert sym r s
  | .treeFromTable => Sys2Proof.Machine.execTreeFromTable s
  | .treeDecode => Sys2Proof.Machine.execTreeDecode s
  | .treeInit => Sys2Proof.Machine.execTreeInit s
  | .hefSerialize => Sys2Proof.Machine.execHefSerialize s
  | .hefDeserialize => Sys2Proof.Machine.execHefDeserialize s
  | .encodeInput => Sys2Proof.Machine.execEncode s
  | .decodeBlob => Sys2Proof.Machine.execDecode s
  | .csrRead n => Sys2Proof.Machine.execCsrRead n s
  | .varintTag0 v => Sys2Proof.Machine.execVarintTag0 v s
  | .varintTag1 v => Sys2Proof.Machine.execVarintTag1 v s
  | .varintTag2 v => Sys2Proof.Machine.execVarintTag2 v s
  | .varintTag3 v => Sys2Proof.Machine.execVarintTag3 v s

end Sys2Proof.Machine
end

