-- ==== Sys2Proof/Machine/Serve.lean ====
section
/-! DEFINITION. How the core serves one transaction: the host interactions of spec/10_state.md R47 and
the reader transaction (notes/assumptions 4), and where a row of the opcode table is placed so that
the next step runs it. -/

namespace Sys2Proof.Machine

/-- Serves a command packet: decode, then run; an illegal packet changes the flags only (R86, R227). -/
def serveCommand (packet : List Byte) (s : State) : Host.Outcome State Fault Refusal :=
  match decodeCommand packet with
  | .ok i => exec i s
  | .error _ => .next s.illegalPacket

/-- Serves the reader transaction: the varint at CUR is decoded and run (R174, log 4). -/
def serveVarint (s : State) : Host.Outcome State Fault Refusal :=
  match decodeVarint (s.blob.drop s.cur) with
  | .ok (i, _) => exec i s
  | .error e => .next (if s.fault then s.refuse else s.afterReader.raise (.call e))

/-- Serves one transaction (R47). Loads and reads work while FAULT = 1 too (R226). A load past the
capacity is no move of the host (log 5). -/
def serve (q : Request) (s : State) : Host.Outcome State Fault Refusal :=
  match q with
  | .loadIn l =>
    if capAllows s.caps.inCap l.length then .next { s with inBuf := l, response := [] }
    else .refused .hostLoadTooLong
  | .loadOut l =>
    if capAllows s.caps.outCap l.length then .next { s with outBuf := l, response := [] }
    else .refused .hostLoadTooLong
  | .loadBlob l =>
    if capAllows s.caps.blobCap l.length then .next { s with blob := l, response := [] }
    else .refused .hostLoadTooLong
  | .readIn => .next { s with response := s.inBuf }
  | .readOut => .next { s with response := s.outBuf }
  | .readBlob => .next { s with response := s.blob }
  | .command packet => serveCommand packet s
  | .reset => .next s.hostReset
  | .readVarint => serveVarint s

/-- Places the bytes of a row of the opcode table where the next step takes its instruction (log 1): a
command as the oldest waiting packet; a varint's own bytes, `1 + 2^tag` of them (R88), in BLOB at CUR,
with the reader transaction waiting. -/
def State.placeRow (s : State) (bytes : List Byte) : State :=
  let op := bytes.headD 0
  if op.toNat ≤ 3 then
    let bytes := bytes.take (1 + 2 ^ op.toNat)
    let before := s.blob.take s.cur
    { s with
      cur := before.length
      blob := before ++ bytes ++ s.blob.drop (s.cur + bytes.length)
      pending := .readVarint :: s.pending }
  else { s with pending := .command (bytes.take ((packetLength op).getD 1)) :: s.pending }

end Sys2Proof.Machine
end

