-- ==== Sys2Proof/Machine/Step.lean ====
section
/-! DEFINITION. One step of the machine: the oldest waiting transaction is served as one atomic
transition (spec/00_scope.md R19); with none waiting the core waits (spec/70_reset_and_hazards.md
R252). How a program comes to run from reset: notes/assumptions 1. -/

namespace Sys2Proof.Machine

/-- One step. -/
def step (s : State) : Host.Outcome State Fault Refusal :=
  match s.pending with
  | [] => .next s
  | q :: rest => serve q { s with pending := rest }

/-- `s` with a row of the opcode table, `nbits` bits of it `w`, placed where the next step takes its
instruction. -/
def State.withFetchWord (s : State) (nbits w : Nat) : State := s.placeRow (tableBytes nbits w)

end Sys2Proof.Machine
end

