-- ==== Sys2Proof/Safety.lean ====
section
/-! DEFINITION. What a safe run is (spec/70_reset_and_hazards.md R255), and the invariant of the state:
what spec/10_state.md and spec/00_scope.md say every state the core is ever in satisfies. -/

namespace Sys2Proof.Machine

/-- Every bit-sequence register is well-formed and within BS_CAP (R22, R25). -/
abbrev State.RegsWf (s : State) : Prop :=
  ∀ r : Fin 263, (s.reg r.val).Wf ∧ capAllows s.caps.bsCap (s.reg r.val).size = true

/-- Every counter of FREQ fits its 64 bits (R28), IN_CAP being finite (R9, R141). The sum of R141 is no part
of it: after a failed ENCODE FREQ is any 64-bit counters (R229). -/
abbrev State.FreqWf (s : State) : Prop :=
  s.caps.inCap.isSome = true → s.freq.toList.all (· < 2 ^ 64) = true

/-- The buffers are within their capacities (R39, R40, R41). -/
abbrev State.BuffersWf (s : State) : Prop :=
  capAllows s.caps.inCap s.inBuf.length = true ∧ capAllows s.caps.outCap s.outBuf.length = true ∧
    capAllows s.caps.blobCap s.blob.length = true

/-- FAULT, FAULT_CAUSE and STATUS agree (R43, R225, R226): the latch is set exactly when a cause is
recorded, and STATUS then is that cause or F_FAULTED; it is neither otherwise. -/
abbrev State.LatchWf (s : State) : Prop :=
  match s.faultCause with
  | some f => s.fault = true ∧ (s.status = .fault f ∨ s.status = .faulted)
  | none => s.fault = false ∧ ∀ f ∈ [FaultCode.popEmpty, .index, .numBits, .tableConflict,
      .dupSymbol, .badStream, .illegalCmd, .noRoot, .noCode], s.status ≠ .fault f ∧ s.status ≠ .faulted

/-- The invariant of the core's state. CUR is not in it: a load or a HEF.SERIALIZE may leave BLOB
shorter than CUR, which they do not touch and which stays readable (R47, R48, R181, log 8). -/
abbrev State.Inv (s : State) : Prop :=
  s.caps.Legal ∧ s.RegsWf ∧ s.FreqWf ∧ SorterWf s.sort ∧ s.seq < 2 ^ 64 ∧ s.arena.Wf ∧ s.taN ≤ 256 ∧
    s.BuffersWf ∧ s.LatchWf

/-- The interactions served by `k` steps, in order, each with what it returned (R255, R84). -/
def State.exchanges : Nat → State → List (Request × List Byte)
  | 0, _ => []
  | k + 1, s =>
    match s.pending with
    | [] => []
    | q :: _ =>
      match step s with
      | .next t => (q, t.response) :: State.exchanges k t
      | .fault _ => []
      | .refused _ => []

/-- The interactions that are answered with a status: the commands (R84), and the model's own reader
transaction (log 4). -/
def Request.isCommand : Request → Bool
  | .command _ => true
  | .readVarint => true
  | .loadIn _ => false
  | .loadOut _ => false
  | .loadBlob _ => false
  | .readIn => false
  | .readOut => false
  | .readBlob => false
  | .reset => false

/-- A response that is not OK: a command (or the reader transaction, log 4) whose status byte is not
0x00. A load, a read and a reset return no status (R47, R84). -/
def responseNotOk (x : Request × List Byte) : Bool :=
  x.1.isCommand && (x.2.head? != some 0x00)

/-- How many interactions of a list are served when its run is over: all up to the last command (R255).
DESIGN CHOICE (log 21): a list without a command is over at its end. -/
def runLength (l : List Request) : Nat :=
  match l.reverse.dropWhile (fun q => !q.isCommand) with
  | [] => l.length
  | q :: rest => (q :: rest).length

/-- The run of the interactions waiting in `s` is over, the response to its last command returned, and `t`
is its final state (R255). -/
abbrev State.RunEnds (s t : State) : Prop :=
  Host.Core.run Sys2Proof.core (runLength s.pending) s = .next t

/-- The run of the interactions waiting in `s` went wrong: FAULT = 1 at its end, or a response the host
cared about was not OK; `cares i` says that it cared about the response to interaction `i` (R255). -/
abbrev State.WentWrong (s : State) (cares : Nat → Bool) : Prop :=
  (∃ t, s.RunEnds t ∧ t.fault = true) ∨
    ∃ (i : Nat) (x : Request × List Byte), (s.exchanges (runLength s.pending))[i]? = some x ∧
      cares i = true ∧ responseNotOk x = true

/-- The oldest waiting load fits its buffer: the moves the host has (R47, U28). -/
abbrev State.HostMoveLegal (s : State) : Prop :=
  match s.pending with
  | .loadIn l :: _ => capAllows s.caps.inCap l.length = true
  | .loadOut l :: _ => capAllows s.caps.outCap l.length = true
  | .loadBlob l :: _ => capAllows s.caps.blobCap l.length = true
  | _ => True

end Sys2Proof.Machine
end

