-- ==== Sys2Proof/Certificates/Slice0/Obligations.lean ====
section
/-! DEFINITION. The statements for the provers. Each docstring names the rules of spec/ it rests on. A
statement about a next state writes the whole state after (a record update of the state before, or a
named frame), so that what it does not name is unchanged. `s.fault = false` is FAULT = 0. -/

open Sys2Proof Sys2Proof.Machine

namespace Sys2Proof.Claims

/-! ### Words the statements share -/

/-- The state after a fault `f` with code `b`: the flags and the response, nothing else (R225). -/
def faultAfter (s : State) (f : FaultCode) (b : Byte) : State :=
  { s with status := .fault f, fault := true, faultCause := some f, response := [b] }

/-- The state after a call error `e` with code `b`: STATUS and the response, nothing else (R224). -/
def callErrorAfter (s : State) (e : CallError) (b : Byte) : State :=
  { s with status := .callError e, response := [b] }

/-- `t` is `s` after a command that wrote register `r` with `v` and answered OK: no other register and
no other piece of state differs. -/
def WroteRegister (s t : State) (r : Nat) (v : BitSeq) : Prop :=
  t.reg r = v ∧ (∀ q, q < 263 → q ≠ r → t.reg q = s.reg q) ∧
    t = { s with
      code := t.code, path := t.path, codes := t.codes, data := t.data, tmp := t.tmp,
      status := .ok, response := [0x00] }

/-- A leaf that holds `y` stands at the end of path `p` from node `i` (R33, R153). -/
def LeafAt (a : Arena) (i : Nat) (p : List Bool) (y : Byte) : Prop :=
  ∃ j f, a.descend i p = some j ∧ a.nodes[j]? = some (.leaf y f)

/-- An internal node with children `l` and `r` stands at the end of path `p` from node `i`. -/
def InnerAt (a : Arena) (i : Nat) (p : List Bool) (l r : Option Nat) : Prop :=
  ∃ j f, a.descend i p = some j ∧ a.nodes[j]? = some (.internal l r f)

/-- The code table is prefix-free (R17, R151). -/
def PrefixFree (s : State) : Prop :=
  ∀ y z : Byte, s.validOf y = true → s.validOf z = true → y ≠ z →
    ¬ (s.codeOf y).bits <+: (s.codeOf z).bits

/-- What one occurrence of a symbol adds to DATA: its code, or one 0 bit for an empty code (R178, R179). -/
def symbolBits (s : State) (y : Byte) : List Bool :=
  if (s.codeOf y).size = 0 then [false] else (s.codeOf y).bits

/-- The reset values of the table of R49. -/
def ResetTable (t : State) : Prop :=
  (∀ r, r < 263 → t.reg r = ⟨[0], 0⟩) ∧ (∀ y : Fin 256, t.freq[y] = 0) ∧ t.sort = [] ∧ t.seq = 0 ∧
    t.arena = ⟨[], none⟩ ∧ (∀ y : Fin 256, t.codeValid[y] = false) ∧ t.taN = 0 ∧
    (∀ i : Fin 256, t.taSym[i] = 0 ∧ t.taLen[i] = 0) ∧ t.inBuf = [] ∧ t.outBuf = [] ∧ t.blob = [] ∧
    t.status = .ok ∧ t.fault = false ∧ t.faultCause = none ∧ t.cur = 0 ∧
    ∀ n : Byte, n.toNat ≤ 0x0D → t.csr n = some 0

end Sys2Proof.Claims

open Sys2Proof.Claims

/-! ### Reset, the invariant, the step -/

/-- R49, R250: the state after reset, and after a HostReset from any state, has the values of the table of
R49. That HostReset is served from the model's queue and keeps the requests that still wait and the
capacities is the model's choice (logs 1, 3, 15). -/
def Obligations.ResetGivesTheValuesOfTheTable : Prop :=
  ResetTable State.reset ∧
    ∀ (s : State) (rest : List Request), s.pending = .reset :: rest →
      ∃ t, step s = .next t ∧ ResetTable t ∧ t.pending = rest ∧ t.caps = s.caps

/-- The reset state satisfies the invariant of Safety.lean (R22, R25, R28, R29, R31, R33, R38, R43). -/
def Obligations.ResetStateSatisfiesTheInvariant : Prop := State.reset.Inv

/-- R22 ("every value the core ever holds is well-formed"), R25, R28, R29, R33, R38, R43: every step from
a state that satisfies the invariant, free draws after a raise included, gives one that does. That SORT drawn
after a failed ENCODE is a sorter as R29 has it, and a drawn root one of the nodes, is the model's reading of
R229 (log 7, DEDUCED). -/
def Obligations.StepKeepsTheInvariant : Prop :=
  ∀ s t : State, s.Inv → step s = .next t → t.Inv

/-- R260 and 93_implementation_defined.md ("the core never gets stuck: every command terminates with a
response"): from a state that satisfies the invariant, every move the host has ends in a next state. -/
def Obligations.LegalMovesNeverStop : Prop :=
  ∀ s : State, s.Inv → s.HostMoveLegal → ∃ t, step s = .next t

/-- A step serves the oldest request of the model's queue and, with none, leaves the state as it is: the
model's choice (log 1; the spec has no queue). Served is the instruction that the packet decodes to (R69,
R83), or, in the model's own reader transaction (log 4), the varint at CUR. -/
def Obligations.StepRunsTheDecodedInstruction : Prop :=
  (∀ (s : State) (p : List Byte) (rest : List Request) (i : Instr),
    s.pending = .command p :: rest → decodeCommand p = .ok i →
      step s = exec i { s with pending := rest }) ∧
  (∀ (s : State) (rest : List Request) (i : Instr) (tail : List Byte),
    s.pending = .readVarint :: rest → decodeVarint (s.blob.drop s.cur) = .ok (i, tail) →
      step s = exec i { s with pending := rest }) ∧
  ∀ s : State, s.pending = [] → step s = .next s

/-- The model's placing of a row of the opcode table (logs 1, 4): the next step runs exactly the row's
instruction, on the state before, but for a varint's own bytes in BLOB at CUR (CUR first cut to BLOB_LEN if
it lies past it). -/
def Obligations.PlacedRowIsRun : Prop :=
  ∀ (s : State) (nbits w : Nat) (i : Instr), decodeTableWord nbits w = some i →
    (i.isVarint = false → step (s.withFetchWord nbits w) = exec i s) ∧
    (i.isVarint = true →
      step (s.withFetchWord nbits w) = exec i { s with
        cur := min s.cur s.blob.length
        blob := s.blob.take s.cur ++ encode i ++ s.blob.drop (s.cur + (encode i).length) })

/-- R47: what each interaction of the host but commands and reset does to the buffers, and what a read
gets back. That the request leaves the model's queue is log 1, and that the response after a load is empty
is log 2. -/
def Obligations.HostInteractionsTouchOnlyTheirBuffer : Prop :=
  ∀ (s : State) (rest : List Request) (l : List Byte),
    (s.pending = .loadIn l :: rest → capAllows s.caps.inCap l.length = true →
      step s = .next { s with pending := rest, inBuf := l, response := [] }) ∧
    (s.pending = .loadOut l :: rest → capAllows s.caps.outCap l.length = true →
      step s = .next { s with pending := rest, outBuf := l, response := [] }) ∧
    (s.pending = .loadBlob l :: rest → capAllows s.caps.blobCap l.length = true →
      step s = .next { s with pending := rest, blob := l, response := [] }) ∧
    (s.pending = .readIn :: rest → step s = .next { s with pending := rest, response := s.inBuf }) ∧
    (s.pending = .readOut :: rest → step s = .next { s with pending := rest, response := s.outBuf }) ∧
    (s.pending = .readBlob :: rest → step s = .next { s with pending := rest, response := s.blob })

/-! ### Encodings -/

/-- R81 to R83: decoding the encoding of a well-formed command gives it back, every operand at every
value the encoding admits. -/
def Obligations.DecodeInvertsEncode : Prop :=
  ∀ i : Instr, i.isVarint = false → i.WellFormed → decodeCommand (encode i) = .ok i

/-- R81 to R83, R86: a packet is accepted only if it is the encoding of the well-formed command it
decodes to. -/
def Obligations.DecodedPacketsAreEncodings : Prop :=
  ∀ (p : List Byte) (i : Instr), decodeCommand p = .ok i →
    i.isVarint = false ∧ i.WellFormed ∧ encode i = p

/-- R88, R89, R91: the four varint forms decode to themselves at the head of any bytes, and nothing
else decodes; minimality is not asked for. -/
def Obligations.VarintFormsRoundTrip : Prop :=
  (∀ (i : Instr) (tail : List Byte), i.isVarint = true →
    decodeVarint (encode i ++ tail) = .ok (i, tail)) ∧
  ∀ (bytes tail : List Byte) (i : Instr), decodeVarint bytes = .ok (i, tail) →
    i.isVarint = true ∧ encode i ++ tail = bytes

/-- R81, R83: a few packets written out byte by byte. -/
def Obligations.WrittenOutPacketsDecode : Prop :=
  decodeCommand [0x13, 0x03, 0x01, 0xA7, 0x08] = .ok (.bsPushByte 259 0xA7 8) ∧
    decodeCommand [0x14, 0x03, 0x01, 0x04, 0x01] = .ok (.bsPushSeq 259 260) ∧
    decodeCommand [0x16, 0x03, 0x01, 0x09, 0, 0, 0, 0, 0, 0, 0] = .ok (.bsAt 259 9) ∧
    decodeCommand [0x31, 0x61, 0x03, 0x01] = .ok (.treeInsert 0x61 259) ∧
    decodeCommand [0x22] = .ok .tableDerive ∧ decodeCommand [0x43] = .ok .decodeBlob ∧
    decodeCommand [0x50, 0x12] = .ok (.csrRead 0x12) ∧
    decodeVarint [0x01, 0x34, 0x12, 0xFF] = .ok (.varintTag1 0x1234, [0xFF])

namespace Sys2Proof.Claims

/-- R81 and R83 as a table: opcode, packet length, offsets of the 16-bit register operands. -/
def formatTable : List (Nat × Nat × List Nat) :=
  [(0x10, 3, [1]), (0x11, 5, [1, 3]), (0x12, 4, [1]), (0x13, 5, [1]), (0x14, 5, [1, 3]),
   (0x15, 3, [1]), (0x16, 11, [1]), (0x17, 3, [1]), (0x18, 3, [1]), (0x20, 1, []), (0x21, 1, []),
   (0x22, 1, []), (0x23, 1, []), (0x30, 1, []), (0x31, 4, [2]), (0x32, 1, []), (0x33, 1, []),
   (0x34, 1, []), (0x40, 1, []), (0x41, 1, []), (0x42, 1, []), (0x43, 1, []), (0x50, 2, [])]

/-- The control register numbers of R45. -/
def csrNumbers : List Nat :=
  [0x00, 0x01, 0x02, 0x03, 0x04, 0x05, 0x06, 0x07, 0x08, 0x09, 0x0A, 0x0B, 0x0C, 0x0D, 0x10, 0x11,
   0x12, 0x13]

/-- The first of the cases (a) to (f) of R86 that a packet falls under. -/
def packetFault (p : List Byte) : Option Reject :=
  match p with
  | [] => some .emptyPacket
  | op :: _ =>
    match formatTable.find? (fun x => x.1 == op.toNat) with
    | none => some .reservedOpcode
    | some (_, len, regs) =>
      if p.length ≠ len then some .badLength
      else if regs.any (fun o => decide (263 ≤ (p.getD o 0).toNat + 256 * (p.getD (o + 1) 0).toNat))
      then some .badRegister
      else if op.toNat = 0x12 ∧ 1 < (p.getD 3 0).toNat then some .badBit
      else if op.toNat = 0x50 ∧ (p.getD 1 0).toNat ∉ csrNumbers then some .badCsr
      else none

end Sys2Proof.Claims

/-- R86, R225: the decoder rejects exactly the packets of the cases (a) to (f), in that order; such a
packet raises F_ILLEGAL_CMD (0x16) and changes no state of the core but STATUS, FAULT and FAULT_CAUSE. That
the request leaves the model's queue is log 1, and that the response stays in a field is log 2. -/
def Obligations.IllegalPacketsLatchTheCore : Prop :=
  (∀ p : List Byte,
    (match decodeCommand p with | .ok _ => none | .error e => some e) = packetFault p) ∧
  ∀ (s : State) (p : List Byte) (rest : List Request), s.fault = false →
    s.pending = .command p :: rest → packetFault p ≠ none →
      step s = .next (faultAfter { s with pending := rest } .illegalCmd 0x16)

/-! ### Status and the fault latch -/

/-- R226: while FAULT = 1 every packet, legal or not, and every instruction does nothing but
STATUS <- F_FAULTED and the response 0x1F; host loads and reads still work (R47). The model's own are the
queue (log 1), the empty response after a load (log 2) and the refusal of the reader transaction (log 4). -/
def Obligations.LatchedCoreRefusesEveryCommand : Prop :=
  ∀ (s : State) (rest : List Request) (l : List Byte), s.fault = true →
    (∀ p, s.pending = .command p :: rest →
      step s = .next { s with pending := rest, status := .faulted, response := [0x1F] }) ∧
    (∀ i, exec i s = .next { s with status := .faulted, response := [0x1F] }) ∧
    (s.pending = .loadIn l :: rest → capAllows s.caps.inCap l.length = true →
      step s = .next { s with pending := rest, inBuf := l, response := [] }) ∧
    (s.pending = .loadOut l :: rest → capAllows s.caps.outCap l.length = true →
      step s = .next { s with pending := rest, outBuf := l, response := [] }) ∧
    (s.pending = .loadBlob l :: rest → capAllows s.caps.blobCap l.length = true →
      step s = .next { s with pending := rest, blob := l, response := [] }) ∧
    (s.pending = .readIn :: rest → step s = .next { s with pending := rest, response := s.inBuf }) ∧
    (s.pending = .readOut :: rest → step s = .next { s with pending := rest, response := s.outBuf }) ∧
    (s.pending = .readBlob :: rest → step s = .next { s with pending := rest, response := s.blob })

namespace Sys2Proof.Claims

/-- The instructions that return result bytes (R84), and the reader transactions (log 4). -/
def hasResult : Instr → Bool
  | .bsAt _ _ => true
  | .bsSize _ => true
  | .bsIter _ => true
  | .csrRead _ => true
  | i => i.isVarint

end Sys2Proof.Claims

/-- R42, R84: the first byte of a response is the status byte left in STATUS; a response that is not OK
carries nothing else, and one that is OK carries result bytes only for BS.AT, BS.SIZE, BS.ITER and
CSR.READ (and the model's own reader transaction, log 4). -/
def Obligations.ResponseCarriesTheStatus : Prop :=
  ∀ (i : Instr) (s t : State), exec i s = .next t →
    t.response.head? = some t.status.byte ∧ (t.status ≠ .ok → t.response = [t.status.byte]) ∧
      (hasResult i = false → t.response = [t.status.byte])

/-- R43, R224, R225, R250: a command on an unlatched core latches it exactly when it reports a fault,
and records that fault; once latched, every step but HostReset keeps FAULT and FAULT_CAUSE. -/
def Obligations.LatchNamesItsCauseAndOnlyResetClearsIt : Prop :=
  (∀ (i : Instr) (s t : State), s.fault = false → s.faultCause = none → exec i s = .next t →
    (t.fault = true ↔ ∃ f, t.status = .fault f) ∧ (∀ f, t.status = .fault f → t.faultCause = some f) ∧
      (t.fault = false → t.faultCause = none)) ∧
  ∀ s t : State, s.fault = true → (∀ rest, s.pending ≠ .reset :: rest) → step s = .next t →
    t.fault = true ∧ t.faultCause = s.faultCause

namespace Sys2Proof.Claims

/-- The registers of R45: number and value. -/
def csrTable (s : State) : List (Byte × Nat) :=
  [(0x00, s.status.byte.toNat), (0x01, s.fault.toNat),
   (0x02, match s.faultCause with | none => 0 | some f => f.byte.toNat), (0x03, s.inBuf.length),
   (0x04, s.outBuf.length), (0x05, s.blob.length), (0x06, s.cur), (0x07, s.arena.nodes.length),
   (0x08, match s.arena.root with | none => 0 | some _ => 1),
   (0x09, match s.arena.root with | none => 0 | some r => r), (0x0A, s.seq),
   (0x0B, s.sort.length), (0x0C, s.taN), (0x0D, s.codeValid.toList.count true), (0x10, 64), (0x11, 8),
   (0x12, 65281), (0x13, 263)]

end Sys2Proof.Claims

/-- R45, R84, R210: CSR.READ of every listed register completes, changes nothing but STATUS, and returns
the register's value in eight little-endian bytes (a value of 2^64 or more, possible only with an
unbounded capacity, returns eight bytes the spec does not state: log 9). -/
def Obligations.CsrReadReturnsTheRegister : Prop :=
  ∀ (s : State), s.fault = false → ∀ x ∈ csrTable s,
    ∃ e : List Byte, e.length = 8 ∧ (x.2 < 2 ^ 64 → leNat e = x.2) ∧
      exec (.csrRead x.1) s = .next { s with status := .ok, response := 0x00 :: e }

/-- R211: CSR.READ 0x00 returns the status the previous command left and leaves STATUS = OK; a second
one in a row returns 0x00. -/
def Obligations.StatusReadReturnsThePreviousStatus : Prop :=
  ∀ s : State, s.fault = false →
    ∃ t u, exec (.csrRead 0x00) s = .next t ∧
      t.response = [0x00, s.status.byte, 0, 0, 0, 0, 0, 0, 0] ∧ t.status = .ok ∧
      exec (.csrRead 0x00) t = .next u ∧ u.response = [0x00, 0, 0, 0, 0, 0, 0, 0, 0]

/-! ### Frames over all instructions -/

namespace Sys2Proof.Claims

/-- Who writes OUT (R60). -/
def writesOut : Instr → Bool
  | .treeDecode => true
  | .decodeBlob => true
  | _ => false

/-- Who writes BLOB (R60). -/
def writesBlob : Instr → Bool
  | .hefSerialize => true
  | .encodeInput => true
  | _ => false

/-- Who writes CUR (R44, R181, R190, R192), and the reader transaction (log 4). -/
def writesCur : Instr → Bool
  | .hefDeserialize => true
  | .decodeBlob => true
  | i => i.isVarint

/-- Who writes FREQ (R28, R190). -/
def writesFreq : Instr → Bool
  | .freqCount => true
  | .encodeInput => true
  | _ => false

/-- Who writes SORT and SEQ (R146, R152, R190). -/
def writesSorter : Instr → Bool
  | .treeBuild => true
  | .encodeInput => true
  | _ => false

/-- Who writes the arena (R146, R152, R153, R155, R190, R192). -/
def writesArena : Instr → Bool
  | .treeBuild => true
  | .treeInit => true
  | .treeInsert _ _ => true
  | .treeFromTable => true
  | .encodeInput => true
  | .decodeBlob => true
  | _ => false

/-- Who writes CODE_VALID (R150, R188, R190, R192, R259). -/
def writesValid : Instr → Bool
  | .tableDerive => true
  | .tableLoad => true
  | .encodeInput => true
  | .decodeBlob => true
  | _ => false

/-- Who writes TA_N, TA_SYM and TA_LEN (R181, R185, R190, R192). -/
def writesTreeArrays : Instr → Bool
  | .hefSerialize => true
  | .hefDeserialize => true
  | .encodeInput => true
  | .decodeBlob => true
  | _ => false

/-- Who writes bit-sequence register `q` (R25, R190, R192). -/
def writesReg (i : Instr) (q : Nat) : Bool :=
  match i with
  | .bsClear r => decide (q = r.toNat)
  | .bsCopy r _ => decide (q = r.toNat)
  | .bsPushBit r _ => decide (q = r.toNat)
  | .bsPushByte r _ _ => decide (q = r.toNat)
  | .bsPushSeq r _ => decide (q = r.toNat)
  | .bsPop r => decide (q = r.toNat)
  | .tableDerive => decide (q ≤ 256)
  | .tableLoad => decide (q < 256)
  | .dataEncode => decide (q = 258)
  | .hefSerialize => decide (q = 257)
  | .hefDeserialize => decide (q = 257) || decide (q = 258)
  | .encodeInput => decide (q ≤ 258)
  | .decodeBlob => decide (q ≤ 258) && decide (q ≠ 256)
  | _ => false

end Sys2Proof.Claims

/-- R25, R28, R39, R40, R44, R60, R190, R192: whatever an instruction ends with, OK, a raise or a
refusal, only the instructions the spec names write each piece of state; no command writes IN, OUT is only
ever appended to, and an instruction that moves CUR leaves it within BLOB (R44). -/
def Obligations.OnlyTheNamedInstructionsWrite : Prop :=
  ∀ (i : Instr) (s t : State), exec i s = .next t →
    t.inBuf = s.inBuf ∧ t.caps = s.caps ∧ t.pending = s.pending ∧
    (∃ l, t.outBuf = s.outBuf ++ l) ∧ (writesOut i = false → t.outBuf = s.outBuf) ∧
    (writesBlob i = false → t.blob = s.blob) ∧ (writesCur i = false → t.cur = s.cur) ∧
    (t.cur ≠ s.cur → t.cur ≤ t.blob.length) ∧
    (writesFreq i = false → t.freq = s.freq) ∧
    (writesSorter i = false → t.sort = s.sort ∧ t.seq = s.seq) ∧
    (writesArena i = false → t.arena = s.arena) ∧
    (writesValid i = false → t.codeValid = s.codeValid) ∧
    (writesTreeArrays i = false → t.taN = s.taN ∧ t.taSym = s.taSym ∧ t.taLen = s.taLen) ∧
    ∀ q, q < 263 → writesReg i q = false → t.reg q = s.reg q

namespace Sys2Proof.Claims

/-- What a command that does not end OK may have changed: the table of R229. The flags, the response
and the model's draw counter stand in every row. -/
def RaiseFrame (i : Instr) (s t : State) : Prop :=
  match i with
  | .tableDerive =>
    t = { s with
      code := t.code, codeValid := t.codeValid, path := t.path, status := t.status, fault := t.fault,
      faultCause := t.faultCause, response := t.response, draws := t.draws }
  | .dataEncode =>
    t = { s with
      data := t.data, status := t.status, fault := t.fault, faultCause := t.faultCause,
      response := t.response, draws := t.draws }
  | .hefSerialize =>
    t = { s with
      taN := t.taN, taSym := t.taSym, taLen := t.taLen, codes := t.codes, status := t.status,
      fault := t.fault, faultCause := t.faultCause, response := t.response, draws := t.draws }
  | .hefDeserialize =>
    t = { s with
      cur := t.cur, taN := t.taN, taSym := t.taSym, taLen := t.taLen, codes := t.codes,
      data := t.data, status := t.status, fault := t.fault, faultCause := t.faultCause,
      response := t.response, draws := t.draws }
  | .tableLoad =>
    t = { s with
      code := t.code, codeValid := t.codeValid, status := t.status, fault := t.fault,
      faultCause := t.faultCause, response := t.response, draws := t.draws }
  | .treeFromTable =>
    t = { s with
      arena := t.arena, status := t.status, fault := t.fault, faultCause := t.faultCause,
      response := t.response, draws := t.draws }
  | .encodeInput =>
    t = { s with
      freq := t.freq, sort := t.sort, seq := t.seq, arena := t.arena, code := t.code,
      codeValid := t.codeValid, path := t.path, data := t.data, taN := t.taN, taSym := t.taSym,
      taLen := t.taLen, codes := t.codes, status := t.status, fault := t.fault,
      faultCause := t.faultCause, response := t.response, draws := t.draws }
  | .decodeBlob =>
    t = { s with
      cur := t.cur, taN := t.taN, taSym := t.taSym, taLen := t.taLen, codes := t.codes,
      data := t.data, code := t.code, codeValid := t.codeValid, arena := t.arena,
      status := t.status, fault := t.fault, faultCause := t.faultCause, response := t.response,
      draws := t.draws }
  | .varintTag0 _ | .varintTag1 _ | .varintTag2 _ | .varintTag3 _ =>
    t = { s with
      cur := t.cur, status := t.status, fault := t.fault, faultCause := t.faultCause,
      response := t.response, draws := t.draws }
  | _ =>
    t = { s with
      status := t.status, fault := t.fault, faultCause := t.faultCause, response := t.response }

end Sys2Proof.Claims

/-- R229, column "unchanged": a command that does not end OK changes nothing but the flags and, for the
stage and composite commands, the pieces its row of R229 leaves unspecified (the rows of the varint
reader are the model's own, log 4). -/
def Obligations.RaiseLeavesTheRestUnchanged : Prop :=
  ∀ (i : Instr) (s t : State), exec i s = .next t → t.status ≠ .ok → RaiseFrame i s t

/-- R184 (and R157, R193 for OUT): a raise of HEF.SERIALIZE or ENCODE leaves BLOB and BLOB_LEN, a raise
of TREE.DECODE or DECODE leaves OUT and OUT_LEN as they were. -/
def Obligations.OutputsAreNeverPartlyWritten : Prop :=
  ∀ s t : State, t.status ≠ .ok →
    (exec .hefSerialize s = .next t → t.blob = s.blob ∧ t.csr 0x05 = s.csr 0x05) ∧
    (exec .encodeInput s = .next t → t.blob = s.blob ∧ t.csr 0x05 = s.csr 0x05) ∧
    (exec .treeDecode s = .next t → t.outBuf = s.outBuf ∧ t.csr 0x04 = s.csr 0x04) ∧
    (exec .decodeBlob s = .next t → t.outBuf = s.outBuf ∧ t.csr 0x04 = s.csr 0x04)

/-! ### The packed bit-sequence container -/

/-- R24: for every bit list there is exactly one well-formed value with those bits, and this is its
representation. -/
def Obligations.MkIsTheOnlyWellFormedValue : Prop :=
  (∀ l : List Bool,
    (BitSeq.ofBits l).Wf ∧ (BitSeq.ofBits l).bits = l ∧
    (∀ v : BitSeq, v.Wf → v.bits = l → v = BitSeq.ofBits l) ∧
    (BitSeq.ofBits l).blocks.length = max 1 ((l.length + 63) / 64) ∧
    (BitSeq.ofBits l).fill = l.length - ((BitSeq.ofBits l).blocks.length - 1) * 64 ∧
    ∀ j i, j < (BitSeq.ofBits l).blocks.length → i < 64 →
      ((BitSeq.ofBits l).blocks.getD j 0).getLsbD (63 - i) = l.getD (64 * j + i) false) ∧
  BitSeq.ofBits [] = ⟨[0], 0⟩ ∧
  ∀ v w : BitSeq, v.Wf → w.Wf → (v.bits = w.bits ↔ v = w)

/-- R111 (over R115, R117, R120, R124, R127): for every well-formed input the block-level algorithms
give exactly mk of the abstract result. -/
def Obligations.BlockAlgorithmsGiveTheAbstractResult : Prop :=
  ∀ v : BitSeq, v.Wf →
    (∀ b, v.pushBit b = .ofBits (v.bits ++ [b])) ∧
    (∀ (y : Byte) (n : Nat), n ≤ 8 →
      v.pushByte y n = .ofBits (v.bits ++ (List.range n).map fun i => y.getLsbD (7 - i))) ∧
    (∀ o : BitSeq, o.Wf → v.pushSeq o = .ofBits (v.bits ++ o.bits)) ∧
    (0 < v.size → v.pop = .ofBits v.bits.dropLast) ∧
    ∀ i, i < v.size → v.bits[i]? = some (v.at i)

/-- R119: push_byte equals n applications of push_bit, bit 7 of the byte first. -/
def Obligations.PushByteIsRepeatedPushBit : Prop :=
  ∀ (v : BitSeq) (y : Byte) (n : Nat), v.Wf → n ≤ 8 →
    v.pushByte y n = (List.range n).foldl (fun w i => w.pushBit (y.getLsbD (7 - i))) v

/-- R126: pop undoes the push of a single bit, blocks and fill. -/
def Obligations.PopUndoesPushBit : Prop :=
  ∀ (v : BitSeq) (b : Bool), v.Wf → (v.pushBit b).pop = v

/-- R130: the size law. -/
def Obligations.SizesAddUp : Prop :=
  ∀ v o : BitSeq, v.Wf → o.Wf →
    (∀ b, (v.pushBit b).size = v.size + 1) ∧
    (∀ (y : Byte) (n : Nat), n ≤ 8 → (v.pushByte y n).size = v.size + n) ∧
    (v.pushSeq o).size = v.size + o.size ∧ (0 < v.size → v.pop.size = v.size - 1)

/-- R131: the concatenation law, for every fill of the receiver and every length of the operand. -/
def Obligations.ConcatenationKeepsBothOperands : Prop :=
  ∀ a b : BitSeq, a.Wf → b.Wf →
    (∀ i, i < a.size → (a.pushSeq b).at i = a.at i) ∧
    ∀ i, a.size ≤ i → i < a.size + b.size → (a.pushSeq b).at i = b.at (i - a.size)

/-- R113, R114, R27: BS.CLEAR empties one register, BS.COPY copies one register whole; no other register
and nothing else changes, whichever registers they name, the same one twice included. -/
def Obligations.ClearAndCopyWriteOneRegister : Prop :=
  ∀ (r o : BitVec 16) (s : State), s.fault = false → r.toNat < 263 →
    (∃ t, exec (.bsClear r) s = .next t ∧ WroteRegister s t r.toNat ⟨[0], 0⟩) ∧
    (o.toNat < 263 → ∃ t, exec (.bsCopy r o) s = .next t ∧ WroteRegister s t r.toNat (s.reg o.toNat))

/-- R116, R118, R121, R123: the pushes append to their register exactly the bits named, within BS_CAP;
PUSH_SEQ reads its operand first, so a register onto itself doubles. -/
def Obligations.PushesAppendToOneRegister : Prop :=
  ∀ (r o : BitVec 16) (s : State), s.fault = false → r.toNat < 263 → (s.reg r.toNat).Wf →
    (∀ bit : Byte, bit.toNat ≤ 1 → capAllows s.caps.bsCap ((s.reg r.toNat).size + 1) = true →
      ∃ t, exec (.bsPushBit r bit) s = .next t ∧
        WroteRegister s t r.toNat (.ofBits ((s.reg r.toNat).bits ++ [decide (bit.toNat = 1)]))) ∧
    (∀ y n : Byte, n.toNat ≤ 8 → capAllows s.caps.bsCap ((s.reg r.toNat).size + n.toNat) = true →
      ∃ t, exec (.bsPushByte r y n) s = .next t ∧
        WroteRegister s t r.toNat
          (.ofBits ((s.reg r.toNat).bits ++ (List.range n.toNat).map fun i => y.getLsbD (7 - i)))) ∧
    (o.toNat < 263 → (s.reg o.toNat).Wf →
      capAllows s.caps.bsCap ((s.reg r.toNat).size + (s.reg o.toNat).size) = true →
      ∃ t, exec (.bsPushSeq r o) s = .next t ∧
        WroteRegister s t r.toNat (.ofBits ((s.reg r.toNat).bits ++ (s.reg o.toNat).bits)))

/-- R124, R125: BS.POP drops the last bit of its register and changes nothing else. -/
def Obligations.PopDropsTheLastBit : Prop :=
  ∀ (r : BitVec 16) (s : State), s.fault = false → r.toNat < 263 → (s.reg r.toNat).Wf →
    0 < (s.reg r.toNat).size →
    ∃ t, exec (.bsPop r) s = .next t ∧
      WroteRegister s t r.toNat (.ofBits (s.reg r.toNat).bits.dropLast)

/-- R127, R128, R129, R84: BS.AT returns the bit, BS.SIZE the size, BS.ITER the count and the packed
bits; nothing but STATUS changes. (A size of 2^64 or more, possible only with BS_CAP unbounded, returns
eight bytes the spec does not state: log 9.) -/
def Obligations.AtSizeIterReturnAndChangeNothing : Prop :=
  ∀ (r : BitVec 16) (s : State), s.fault = false → r.toNat < 263 →
    (∀ index : BitVec 64, index.toNat < (s.reg r.toNat).size →
      ∃ b, (s.reg r.toNat).bits[index.toNat]? = some b ∧
        exec (.bsAt r index) s =
          .next { s with status := .ok, response := [0x00, if b then 0x01 else 0x00] }) ∧
    ∃ e : List Byte, e.length = 8 ∧
      ((s.reg r.toNat).size < 2 ^ 64 → leNat e = (s.reg r.toNat).size) ∧
      exec (.bsSize r) s = .next { s with status := .ok, response := 0x00 :: e } ∧
      exec (.bsIter r) s =
        .next { s with status := .ok, response := 0x00 :: (e ++ pack (s.reg r.toNat).bits) }

/-- R118, R125, R127, R225: the precondition violations of the BS.* commands latch the core with their
own code and change nothing else. -/
def Obligations.BitSequencePreconditionsLatch : Prop :=
  ∀ (r : BitVec 16) (s : State), s.fault = false → r.toNat < 263 →
    ((s.reg r.toNat).size = 0 → exec (.bsPop r) s = .next (faultAfter s .popEmpty 0x10)) ∧
    (∀ index : BitVec 64, (s.reg r.toNat).size ≤ index.toNat →
      exec (.bsAt r index) s = .next (faultAfter s .index 0x11)) ∧
    ∀ y n : Byte, 8 < n.toNat → exec (.bsPushByte r y n) s = .next (faultAfter s .numBits 0x12)

/-- R112, R224: a push that would pass BS_CAP is E_CAPACITY and changes no register. -/
def Obligations.PushPastCapacityIsACallError : Prop :=
  ∀ (r o : BitVec 16) (s : State) (c : Nat), s.fault = false → r.toNat < 263 → s.caps.bsCap = some c →
    (∀ bit : Byte, bit.toNat ≤ 1 → c < (s.reg r.toNat).size + 1 →
      exec (.bsPushBit r bit) s = .next (callErrorAfter s .capacity 0x05)) ∧
    (∀ y n : Byte, n.toNat ≤ 8 → c < (s.reg r.toNat).size + n.toNat →
      exec (.bsPushByte r y n) s = .next (callErrorAfter s .capacity 0x05)) ∧
    (o.toNat < 263 → c < (s.reg r.toNat).size + (s.reg o.toNat).size →
      exec (.bsPushSeq r o) s = .next (callErrorAfter s .capacity 0x05))

/-! ### The CodeTree -/

/-- R140, R141: FREQ.COUNT leaves in FREQ[y] the number of occurrences of y in IN, their sum IN_LEN, and
changes nothing else. -/
def Obligations.FreqCountCountsOccurrences : Prop :=
  ∀ s : State, s.fault = false →
    ∃ f : Vector Nat 256,
      exec .freqCount s = .next { s with freq := f, status := .ok, response := [0x00] } ∧
      (∀ y : Fin 256, f[y] = s.inBuf.count (BitVec.ofNat 8 y)) ∧ f.toList.sum = s.inBuf.length

namespace Sys2Proof.Claims

/-- The symbols in the frequency map, ascending (R28). -/
def inMap (f : Vector Nat 256) : List (Fin 256) := (List.finRange 256).filter fun y => 0 < f[y]

/-- NFREQ of node `j` (R30). -/
def nfreq (a : Arena) (j : Nat) : Nat :=
  match a.nodes[j]? with
  | some (.leaf _ f) => f
  | some (.internal _ _ f) => f
  | none => 0

/-- Node `m` comes before node `n` in the order of the sorter: lower frequency first, then the earlier
insertion, which in TREE.BUILD is the lower index (R29, R143, R145). -/
def sortedBefore (a : Arena) (m n : Nat) : Prop :=
  nfreq a m < nfreq a n ∨ (nfreq a m = nfreq a n ∧ m < n)

end Sys2Proof.Claims

/-- R146, R147: TREE.BUILD's end state for k symbols in the map: nothing for k = 0; leaves 0..k-1 in
ascending symbol order, internal nodes k..2k-2 with both children, ROOT = 2k-2 with the sum of FREQ,
SEQ = 2k-1, SORT empty; nothing else changes. -/
def Obligations.TreeBuildEndState : Prop :=
  ∀ s : State, s.fault = false →
    ∃ a : Arena,
      exec .treeBuild s =
        .next { s with
          arena := a, sort := [], seq := 2 * (inMap s.freq).length - 1, status := .ok,
          response := [0x00] } ∧
      a.nodes.length = 2 * (inMap s.freq).length - 1 ∧
      (inMap s.freq = [] → a.root = none) ∧
      (inMap s.freq ≠ [] → a.root = some (2 * (inMap s.freq).length - 2) ∧
        nfreq a (2 * (inMap s.freq).length - 2) = s.freq.toList.sum) ∧
      (∀ (j : Nat) (y : Fin 256), (inMap s.freq)[j]? = some y →
        a.nodes[j]? = some (.leaf (BitVec.ofNat 8 y) s.freq[y])) ∧
      ∀ j, (inMap s.freq).length ≤ j → j < 2 * (inMap s.freq).length - 1 →
        ∃ l r f, a.nodes[j]? = some (.internal (some l) (some r) f)

/-- R144, R145, R146: each internal node that TREE.BUILD makes merges the two least of the nodes made
before it and not yet merged, in the order of the sorter, the least as its left child; its NFREQ is
their sum. -/
def Obligations.TreeBuildMergesTheTwoLeast : Prop :=
  ∀ s t : State, s.fault = false → exec .treeBuild s = .next t →
    ∀ j l r f, t.arena.nodes[j]? = some (.internal (some l) (some r) f) →
      l < j ∧ r < j ∧ sortedBefore t.arena l r ∧ f = nfreq t.arena l + nfreq t.arena r ∧
      (∀ (i : Nat) (n : Node), i < j → t.arena.nodes[i]? = some n →
        l ∉ n.children ∧ r ∉ n.children) ∧
      ∀ m, m < j →
        (∀ (i : Nat) (n : Node), i < j → t.arena.nodes[i]? = some n → m ∉ n.children) →
        m = l ∨ m = r ∨ sortedBefore t.arena r m

/-- R148: with exactly one symbol in the map the tree is a single leaf, and the table derived from it
holds that symbol alone, with the empty code. -/
def Obligations.OneSymbolGetsTheEmptyCode : Prop :=
  ∀ (s : State) (y : Fin 256), s.fault = false → 0 < s.freq[y] →
    (∀ z : Fin 256, z ≠ y → s.freq[z] = 0) →
    ∃ t u, exec .treeBuild s = .next t ∧
      t.arena = ⟨[.leaf (BitVec.ofNat 8 y) s.freq[y]], some 0⟩ ∧ exec .tableDerive t = .next u ∧
      u.codeOf (BitVec.ofNat 8 y) = ⟨[0], 0⟩ ∧
      ∀ z : Byte, u.validOf z = true ↔ z = BitVec.ofNat 8 y

namespace Sys2Proof.Claims

/-- BS_CAP allows the path to every node below the root. -/
def DepthFits (s : State) : Prop :=
  ∀ (root j : Nat) (p : List Bool), s.arena.root = some root → s.arena.descend root p = some j →
    capAllows s.caps.bsCap p.length = true

end Sys2Proof.Claims

/-- R150, R151: TABLE.DERIVE on any tree of a state that satisfies the invariant. With BS_CAP allowing the
depth of the tree, the keys are the symbols of the leaves below the root, each with the path to a leaf that
holds it, the rightmost if several do (visited last, left before right); every other CODE register and PATH
end empty; nothing else changes. On a deeper tree it is E_CAPACITY. -/
def Obligations.TableDeriveListsTheLeaves : Prop :=
  ∀ s : State, s.Inv → s.fault = false →
    (DepthFits s →
      ∃ t, exec .tableDerive s = .next t ∧
        t = { s with
          code := t.code, codeValid := t.codeValid, path := ⟨[0], 0⟩, status := .ok,
          response := [0x00] } ∧
        ∀ y : Byte,
          (t.validOf y = true ↔ ∃ root p, s.arena.root = some root ∧ LeafAt s.arena root p y) ∧
          (t.validOf y = true → ∃ root p, s.arena.root = some root ∧ LeafAt s.arena root p y ∧
            t.codeOf y = .ofBits p ∧
            ∀ p', LeafAt s.arena root p' y →
              p' = p ∨ ∃ c a b, p' = c ++ false :: a ∧ p = c ++ true :: b) ∧
          (t.validOf y = false → t.codeOf y = ⟨[0], 0⟩)) ∧
    (¬ DepthFits s →
      ∃ t, exec .tableDerive s = .next t ∧ t.status = .callError .capacity ∧ t.fault = false)

/-- R151 and the source's second property: a table derived from any tree of a state that satisfies the
invariant is prefix-free. -/
def Obligations.DerivedTableIsPrefixFree : Prop :=
  ∀ s t : State, s.Inv → exec .tableDerive s = .next t → t.status = .ok → PrefixFree t

/-- R152: TREE.INIT leaves the bare root, INTERNAL without children, and changes nothing else. -/
def Obligations.TreeInitLeavesTheBareRoot : Prop :=
  ∀ s : State, s.fault = false →
    exec .treeInit s =
      .next { s with arena := ⟨[.internal none none 0], some 0⟩, status := .ok, response := [0x00] }

/-- R153, R34: TREE.INSERT of a code whose bits are a path `p` to an internal node and then `q`, where
the node has no child on the side of q's first bit, or, q being empty, no child at all. With room for the
missing nodes within NODE_CAP it allocates one node per bit of `q`; the leaf stands at the end of the code's
path, the internal nodes are the old ones and those on that path, every other leaf keeps its path, and
nothing else changes. Past NODE_CAP it is E_CAPACITY, and nothing changes. -/
def Obligations.TreeInsertAddsExactlyOneLeaf : Prop :=
  ∀ (s : State) (y : Byte) (r : BitVec 16) (root : Nat) (p q : List Bool) (l k : Option Nat),
    s.Inv → s.fault = false → r.toNat < 263 → s.arena.root = some root →
    (s.reg r.toNat).bits = p ++ q → InnerAt s.arena root p l k →
    (q = [] → l = none ∧ k = none) → (∀ b rest, q = b :: rest → (if b then k else l) = none) →
    (s.arena.nodes.length + q.length ≤ 65281 →
      ∃ a : Arena,
        exec (.treeInsert y r) s = .next { s with arena := a, status := .ok, response := [0x00] } ∧
        a.root = some root ∧ a.nodes.length = s.arena.nodes.length + q.length ∧
        (∀ p', (∃ l' k', InnerAt a root p' l' k') ↔
          ((∃ l' k', InnerAt s.arena root p' l' k') ∨ p' <+: (s.reg r.toNat).bits) ∧
            p' ≠ (s.reg r.toNat).bits) ∧
        ∀ p' z, LeafAt a root p' z ↔
          (p' = (s.reg r.toNat).bits ∧ z = y) ∨ LeafAt s.arena root p' z) ∧
    (65281 < s.arena.nodes.length + q.length →
      exec (.treeInsert y r) s = .next (callErrorAfter s .capacity 0x05))

/-- R153, R154: the three conflicts are F_TABLE_CONFLICT, no root is F_NO_ROOT, and the arena is left
exactly as it was. -/
def Obligations.TreeInsertConflictsLatch : Prop :=
  ∀ (s : State) (y : Byte) (r : BitVec 16), s.fault = false → r.toNat < 263 →
    (s.arena.root = none → exec (.treeInsert y r) s = .next (faultAfter s .noRoot 0x17)) ∧
    ∀ root, s.arena.root = some root →
      ((∃ p z, p <+: (s.reg r.toNat).bits ∧ LeafAt s.arena root p z) →
        exec (.treeInsert y r) s = .next (faultAfter s .tableConflict 0x13)) ∧
      ((∃ l k, InnerAt s.arena root (s.reg r.toNat).bits l k ∧ (l ≠ none ∨ k ≠ none)) →
        exec (.treeInsert y r) s = .next (faultAfter s .tableConflict 0x13))

namespace Sys2Proof.Claims

/-- The tree of the table fits NODE_CAP (R36): a root, and a node for every different non-empty prefix of
a code. -/
def NodesFit (s : State) : Prop :=
  ∀ ps : List (List Bool), ps.Nodup →
    (∀ p ∈ ps, p ≠ [] ∧ ∃ y : Byte, s.validOf y = true ∧ p <+: (s.codeOf y).bits) →
    ps.length + 1 ≤ 65281

end Sys2Proof.Claims

/-- R155, R156, R34: TREE.FROM_TABLE on a prefix-free table. With its tree within NODE_CAP it builds a
tree whose leaves are exactly the table's entries, each at the end of its code, and whose internal nodes are
exactly the root and the proper prefixes of the codes; NODE_COUNT is 1 and the number of different non-empty
prefixes; nothing but the arena changes. Past NODE_CAP it is E_CAPACITY. -/
def Obligations.FromTableRebuildsTheTable : Prop :=
  ∀ s : State, s.Inv → s.fault = false → PrefixFree s →
    (NodesFit s →
      ∃ a : Arena,
        exec .treeFromTable s = .next { s with arena := a, status := .ok, response := [0x00] } ∧
        a.root = some 0 ∧
        (∀ p y, LeafAt a 0 p y ↔ (s.validOf y = true ∧ p = (s.codeOf y).bits)) ∧
        (∀ p, (∃ l r, InnerAt a 0 p l r) ↔
          (p = [] ∨ ∃ y : Byte, s.validOf y = true ∧ p <+: (s.codeOf y).bits) ∧
            ∀ y : Byte, s.validOf y = true → p ≠ (s.codeOf y).bits) ∧
        ∃ ps : List (List Bool), ps.Nodup ∧ a.nodes.length = ps.length + 1 ∧
          ∀ p, p ∈ ps ↔ p ≠ [] ∧ ∃ y : Byte, s.validOf y = true ∧ p <+: (s.codeOf y).bits) ∧
    (¬ NodesFit s →
      ∃ t, exec .treeFromTable s = .next t ∧ t.status = .callError .capacity ∧ t.fault = false)

/-- R155, R156, R103: TREE.FROM_TABLE on a table that is not prefix-free never completes: it is
F_TABLE_CONFLICT when the nodes of its codes fit NODE_CAP, and that or E_CAPACITY, whichever insertion
raises first, when they do not. -/
def Obligations.FromTableConflictLatches : Prop :=
  ∀ s : State, s.Inv → s.fault = false → ¬ PrefixFree s →
    (NodesFit s →
      ∃ t, exec .treeFromTable s = .next t ∧ t.status = .fault .tableConflict ∧ t.fault = true) ∧
    ∃ t, exec .treeFromTable s = .next t ∧
      (t.status = .fault .tableConflict ∨ t.status = .callError .capacity)

/-- R157, R158, R159: TREE.DECODE appends, for data bits that are paths to leaves one after another and
then perhaps the start of one more, the symbols of those leaves; with a LEAF root it appends the root's
symbol once per bit; with no tree and no bits it appends nothing. Nothing else changes. Past OUT_CAP each of
them is E_CAPACITY, and nothing is appended. -/
def Obligations.TreeDecodeEmitsTheSymbols : Prop :=
  ∀ s : State, s.fault = false →
    (∀ (root : Nat) (l r : Option Nat) (words : List (List Bool × Byte)) (tail : List Bool),
      s.arena.root = some root → InnerAt s.arena root [] l r →
      (∀ w ∈ words, LeafAt s.arena root w.1 w.2) → (∃ l' r', InnerAt s.arena root tail l' r') →
      s.data.bits = words.flatMap Prod.fst ++ tail →
      (capAllows s.caps.outCap (s.outBuf.length + words.length) = true →
        exec .treeDecode s =
          .next { s with
            outBuf := s.outBuf ++ words.map Prod.snd, status := .ok, response := [0x00] }) ∧
      (capAllows s.caps.outCap (s.outBuf.length + words.length) = false →
        exec .treeDecode s = .next (callErrorAfter s .capacity 0x05))) ∧
    (∀ (root : Nat) (y : Byte), s.arena.root = some root → LeafAt s.arena root [] y →
      (capAllows s.caps.outCap (s.outBuf.length + s.data.size) = true →
        exec .treeDecode s =
          .next { s with
            outBuf := s.outBuf ++ List.replicate s.data.size y, status := .ok, response := [0x00] }) ∧
      (capAllows s.caps.outCap (s.outBuf.length + s.data.size) = false →
        exec .treeDecode s = .next (callErrorAfter s .capacity 0x05))) ∧
    (s.arena.root = none → s.data.size = 0 →
      (capAllows s.caps.outCap s.outBuf.length = true →
        exec .treeDecode s = .next { s with status := .ok, response := [0x00] }) ∧
      (capAllows s.caps.outCap s.outBuf.length = false →
        exec .treeDecode s = .next (callErrorAfter s .capacity 0x05)))

/-- R157, R160: a data bit that selects a child that does not exist, and any data bit with no tree, is
F_BAD_STREAM; nothing is appended, nothing else changes. -/
def Obligations.TreeDecodeOffTheTreeLatches : Prop :=
  ∀ s : State, s.fault = false →
    (∀ (root : Nat) (words : List (List Bool × Byte)) (p rest : List Bool) (b : Bool)
      (l r : Option Nat),
      s.arena.root = some root → (∃ l0 r0, InnerAt s.arena root [] l0 r0) →
      (∀ w ∈ words, LeafAt s.arena root w.1 w.2) → InnerAt s.arena root p l r →
      (if b then r else l) = none → s.data.bits = words.flatMap Prod.fst ++ (p ++ b :: rest) →
      exec .treeDecode s = .next (faultAfter s .badStream 0x15)) ∧
    (s.arena.root = none → 0 < s.data.size →
      exec .treeDecode s = .next (faultAfter s .badStream 0x15))

/-! ### The codec -/

/-- R176: every number below 2^64 is written with the minimal tag and read back, wherever it stands;
2^64 and above cannot be written (R90). -/
def Obligations.VarintRoundTrip : Prop :=
  ∀ v : Nat,
    (v < 2 ^ 64 → ∃ l, varint v = .ok l ∧
      l.head? = some (if v ≤ 255 then 0x00 else if v ≤ 65535 then 0x01
        else if v ≤ 4294967295 then 0x02 else 0x03) ∧
      ∀ before after : List Byte,
        readVarint (before ++ l ++ after) before.length = .ok (v, before.length + l.length)) ∧
    (2 ^ 64 ≤ v → varint v = .error (.raise (.call .capacity)))

/-- R91, R172, R174: read_varint at any cursor is the decoding of the varint that stands there: it
answers the value of its bytes and moves past it, or fails with the decoder's error. -/
def Obligations.ReadVarintIsTheDecodedForm : Prop :=
  ∀ (blob : List Byte) (cur : Nat),
    (∀ i tail, decodeVarint (blob.drop cur) = .ok (i, tail) →
      readVarint blob cur = .ok (leNat i.operandBytes, cur + (encode i).length)) ∧
    ∀ e, decodeVarint (blob.drop cur) = .error e →
      readVarint blob cur = .error (.raise (.call e))

/-- R88, R174, in the model's own reader transaction (log 4): a varint whose bytes BLOB holds at CUR
returns its value, moves CUR past it and changes nothing else; with fewer bytes it is E_TRUNCATED (R172),
and then only CUR and the flags differ. -/
def Obligations.VarintFormsMoveTheCursor : Prop :=
  ∀ s : State, s.fault = false →
    (∀ v : BitVec 8, s.cur + 2 ≤ s.blob.length → exec (.varintTag0 v) s =
      .next { s with cur := s.cur + 2, status := .ok, response := 0x00 :: leBytes 8 v.toNat }) ∧
    (∀ v : BitVec 16, s.cur + 3 ≤ s.blob.length → exec (.varintTag1 v) s =
      .next { s with cur := s.cur + 3, status := .ok, response := 0x00 :: leBytes 8 v.toNat }) ∧
    (∀ v : BitVec 32, s.cur + 5 ≤ s.blob.length → exec (.varintTag2 v) s =
      .next { s with cur := s.cur + 5, status := .ok, response := 0x00 :: leBytes 8 v.toNat }) ∧
    (∀ v : BitVec 64, s.cur + 9 ≤ s.blob.length → exec (.varintTag3 v) s =
      .next { s with cur := s.cur + 9, status := .ok, response := 0x00 :: leBytes 8 v.toNat }) ∧
    ∀ i : Instr, i.isVarint = true → s.blob.length < s.cur + (encode i).length →
      ∃ t, exec i s = .next t ∧ t.status = .callError .truncated ∧ t.response = [0x02] ∧
        t = { s with cur := t.cur, status := t.status, response := t.response, draws := t.draws }

/-- R13: pack puts bit i in byte i div 8 at position 7 - (i mod 8) and 0 past the end, in ceil8 bytes;
unpack reads bit i from there. -/
def Obligations.PackIsMostSignificantBitFirst : Prop :=
  (∀ l : List Bool, (pack l).length = (l.length + 7) / 8 ∧
    (∀ i, i < 8 * (pack l).length →
      ((pack l).getD (i / 8) 0).getLsbD (7 - i % 8) = l.getD i false) ∧
    unpack (pack l) l.length = l) ∧
  ∀ (bytes : List Byte) (n : Nat), n ≤ 8 * bytes.length →
    (unpack bytes n).length = n ∧
      ∀ i, i < n → (unpack bytes n)[i]? = some ((bytes.getD (i / 8) 0).getLsbD (7 - i % 8))

/-- R178, R179, R180: DATA.ENCODE, every symbol of IN being a key and BS_CAP allowing the result, leaves
in DATA the codes of the symbols of IN one after another, a 0 bit for each empty code; nothing else
changes. -/
def Obligations.DataEncodeConcatenatesTheCodes : Prop :=
  ∀ s : State, s.fault = false → s.RegsWf → (∀ y ∈ s.inBuf, s.validOf y = true) →
    capAllows s.caps.bsCap (s.inBuf.flatMap (symbolBits s)).length = true →
    exec .dataEncode s =
      .next { s with
        data := .ofBits (s.inBuf.flatMap (symbolBits s)), status := .ok, response := [0x00] }

/-- R178, R224, R225, R229: DATA.ENCODE stops at the first symbol of IN that is no key (F_NO_CODE) or
whose code passes BS_CAP (E_CAPACITY), whatever follows it; with BS_CAP unbounded any symbol that is no key
is F_NO_CODE. Of the rest of the state only DATA may differ. -/
def Obligations.DataEncodeNeedsEveryCode : Prop :=
  ∀ s : State, s.fault = false →
    (s.caps.bsCap = none → (∃ y ∈ s.inBuf, s.validOf y = false) →
      ∃ t, exec .dataEncode s = .next t ∧
        t = { faultAfter s .noCode 0x18 with data := t.data, draws := t.draws }) ∧
    ∀ (before after : List Byte) (y : Byte), s.RegsWf → s.inBuf = before ++ y :: after →
      (∀ z ∈ before, s.validOf z = true) →
      capAllows s.caps.bsCap (before.flatMap (symbolBits s)).length = true →
      (s.validOf y = false →
        ∃ t, exec .dataEncode s = .next t ∧
          t = { faultAfter s .noCode 0x18 with data := t.data, draws := t.draws }) ∧
      (s.validOf y = true →
        capAllows s.caps.bsCap ((before ++ [y]).flatMap (symbolBits s)).length = false →
        ∃ t, exec .dataEncode s = .next t ∧
          t = { callErrorAfter s .capacity 0x05 with data := t.data, draws := t.draws })

/-- R92 to R99, R181, R183: HEF.SERIALIZE writes the seven fields of the container, entries in ascending
symbol order, of the length R98 gives, and the tree arrays and CODES with them; nothing else changes. Each
of the four cases of R183 is E_CAPACITY and leaves BLOB: a container past BLOB_CAP, a valid code longer than
255 bits, codes past BS_CAP, a number past 2^64 - 1. -/
def Obligations.HefSerializeWritesTheContainer : Prop :=
  ∀ s : State, s.fault = false → s.RegsWf →
    (s.alphabet.Pairwise (· < ·) ∧ ∀ y : Byte, y ∈ s.alphabet ↔ s.validOf y = true) ∧
    ((∀ y, s.validOf y = true → (s.codeOf y).size ≤ 255) → s.data.size / 8 < 2 ^ 64 →
      capAllows s.caps.bsCap (s.alphabet.flatMap fun y => (s.codeOf y).bits).length = true →
      ∃ fieldA fieldQ buf : List Byte,
        varint s.alphabet.length = .ok fieldA ∧ varint (s.data.size / 8) = .ok fieldQ ∧
        buf = fieldA ++ s.alphabet ++ (s.alphabet.map fun y => BitVec.ofNat 8 (s.codeOf y).size)
          ++ pack (s.alphabet.flatMap fun y => (s.codeOf y).bits) ++ fieldQ
          ++ [BitVec.ofNat 8 (s.data.size % 8)] ++ pack s.data.bits ∧
        buf.length = fieldA.length + 2 * s.alphabet.length
          + ((s.alphabet.map fun y => (s.codeOf y).size).sum + 7) / 8 + fieldQ.length + 1
          + s.data.size / 8 + (if 0 < s.data.size % 8 then 1 else 0) ∧
        (capAllows s.caps.blobCap buf.length = true →
          exec .hefSerialize s =
            .next { s with
              taN := s.alphabet.length
              taSym := treeArray s.alphabet
              taLen := treeArray (s.alphabet.map fun y => BitVec.ofNat 8 (s.codeOf y).size)
              codes := .ofBits (s.alphabet.flatMap fun y => (s.codeOf y).bits)
              blob := buf, status := .ok, response := [0x00] }) ∧
        (capAllows s.caps.blobCap buf.length = false →
          ∃ t, exec .hefSerialize s = .next t ∧ t.status = .callError .capacity ∧ t.blob = s.blob)) ∧
    ((∃ y, s.validOf y = true ∧ 255 < (s.codeOf y).size) →
      ∃ t, exec .hefSerialize s = .next t ∧ t.status = .callError .capacity ∧ t.blob = s.blob) ∧
    (capAllows s.caps.bsCap (s.alphabet.flatMap fun y => (s.codeOf y).bits).length = false →
      ∃ t, exec .hefSerialize s = .next t ∧ t.status = .callError .capacity ∧ t.blob = s.blob) ∧
    (2 ^ 64 ≤ s.data.size / 8 →
      ∃ t, exec .hefSerialize s = .next t ∧ t.status = .callError .capacity ∧ t.blob = s.blob)

namespace Sys2Proof.Claims

/-- A container before its data bits: fields 1 to 6 (R92), the two varints in any of their forms. -/
def headBytes (fieldA : Instr) (syms lens codeBytes : List Byte) (fieldQ : Instr) (rem : Byte) :
    List Byte :=
  encode fieldA ++ syms ++ lens ++ codeBytes ++ encode fieldQ ++ [rem]

/-- The sizes of fields 1 to 4 fit each other (R93, R94). -/
def HeadFits (fieldA : Instr) (syms lens codeBytes : List Byte) (fieldQ : Instr) : Prop :=
  fieldA.isVarint = true ∧ fieldQ.isVarint = true ∧ leNat fieldA.operandBytes = syms.length ∧
    lens.length = syms.length ∧ syms.length ≤ 256 ∧
    codeBytes.length = ((lens.map BitVec.toNat).sum + 7) / 8

/-- The data bit count that fields 5 and 6 declare (R96). -/
def bitCount (fieldQ : Instr) (rem : Byte) : Nat := 8 * leNat fieldQ.operandBytes + rem.toNat

end Sys2Proof.Claims

/-- R92 to R102, R185: HEF.DESERIALIZE reads a complete container at the start of BLOB, its varints
minimal or not, its pad bits anything, whatever follows it: the tree arrays, CODES and DATA are those the
fields hold, CUR is the container's length, and nothing else changes. -/
def Obligations.HefDeserializeReadsTheContainer : Prop :=
  ∀ (s : State) (fieldA fieldQ : Instr) (syms lens codeBytes dataBytes tail : List Byte) (rem : Byte),
    s.fault = false → HeadFits fieldA syms lens codeBytes fieldQ → rem.toNat ≤ 7 →
    dataBytes.length = (bitCount fieldQ rem + 7) / 8 →
    s.blob = headBytes fieldA syms lens codeBytes fieldQ rem ++ dataBytes ++ tail →
    capAllows s.caps.bsCap (lens.map BitVec.toNat).sum = true →
    capAllows s.caps.bsCap (bitCount fieldQ rem) = true →
    exec .hefDeserialize s =
      .next { s with
        cur := (headBytes fieldA syms lens codeBytes fieldQ rem).length + dataBytes.length
        taN := syms.length
        taSym := treeArray syms
        taLen := treeArray lens
        codes := .ofBits (unpack codeBytes (lens.map BitVec.toNat).sum)
        data := .ofBits (unpack dataBytes (bitCount fieldQ rem))
        status := .ok, response := [0x00] }

namespace Sys2Proof.Claims

/-- HEF.DESERIALIZE ends with the call error `e`, which does not latch the core (R224). -/
def DeserializeFails (s : State) (e : CallError) : Prop :=
  ∃ t, exec .hefDeserialize s = .next t ∧ t.status = .callError e ∧ t.fault = false

/-- The total of a list of code lengths, `T` of R185. -/
def totalOf (lens : List Byte) : Nat := (lens.map BitVec.toNat).sum

end Sys2Proof.Claims

/-- R91, R172, R185, R222, R228: HEF.DESERIALIZE reports the first defect of the container, in field
order: a first field that is no varint, an alphabet size above 256, symbols or lengths cut short, a total
past BS_CAP, code bits cut short, a fifth field that is no varint, a missing sixth, a remainder above 7, a
bit count past BS_CAP, data bits cut short. What follows the defect does not matter. -/
def Obligations.HefDeserializeRejectsInFieldOrder : Prop :=
  ∀ s : State, s.fault = false →
    (∀ e, decodeVarint s.blob = .error e → DeserializeFails s e) ∧
    ∀ (fieldA : Instr) (r1 : List Byte), decodeVarint s.blob = .ok (fieldA, r1) →
      (256 < leNat fieldA.operandBytes → DeserializeFails s .alphabet) ∧
      (leNat fieldA.operandBytes ≤ 256 → r1.length < 2 * leNat fieldA.operandBytes →
        DeserializeFails s .truncated) ∧
      ∀ syms lens r3 : List Byte, r1 = syms ++ lens ++ r3 → leNat fieldA.operandBytes ≤ 256 →
        syms.length = leNat fieldA.operandBytes → lens.length = leNat fieldA.operandBytes →
        (capAllows s.caps.bsCap (totalOf lens) = false → DeserializeFails s .capacity) ∧
        (capAllows s.caps.bsCap (totalOf lens) = true →
          (r3.length < (totalOf lens + 7) / 8 → DeserializeFails s .truncated) ∧
          ∀ codeBytes r4 : List Byte, r3 = codeBytes ++ r4 →
            codeBytes.length = (totalOf lens + 7) / 8 →
            (∀ e, decodeVarint r4 = .error e → DeserializeFails s e) ∧
            ∀ (fieldQ : Instr) (r5 : List Byte), decodeVarint r4 = .ok (fieldQ, r5) →
              (r5 = [] → DeserializeFails s .truncated) ∧
              ∀ (rem : Byte) (r6 : List Byte), r5 = rem :: r6 →
                (7 < rem.toNat → DeserializeFails s .remainder) ∧
                (rem.toNat ≤ 7 →
                  (capAllows s.caps.bsCap (bitCount fieldQ rem) = false →
                    DeserializeFails s .capacity) ∧
                  (capAllows s.caps.bsCap (bitCount fieldQ rem) = true →
                    r6.length < (bitCount fieldQ rem + 7) / 8 → DeserializeFails s .truncated)))

/-- R188, R189, R228: TABLE.LOAD cuts CODES into the codes of the entries, one after another; the keys
are the entries' symbols, every other CODE register ends empty, nothing else changes. It stops at the first
entry that fails, whatever follows it: F_DUP_SYMBOL when its symbol stands in an earlier entry, otherwise
F_INDEX when CODES is too short for it. -/
def Obligations.TableLoadCutsCodesIntoTheTable : Prop :=
  ∀ s : State, s.Inv → s.fault = false →
    ((s.taEntries.map Prod.fst).Nodup →
      (s.taEntries.map fun e => e.2.toNat).sum ≤ s.codes.size →
      ∃ t, exec .tableLoad s = .next t ∧
        t = { s with
          code := t.code, codeValid := t.codeValid, status := .ok, response := [0x00] } ∧
        (∀ (i : Nat) (y len : Byte), s.taEntries[i]? = some (y, len) →
          t.validOf y = true ∧
          t.codeOf y = .ofBits
            ((s.codes.bits.drop ((s.taEntries.take i).map fun e => e.2.toNat).sum).take len.toNat)) ∧
        ∀ y : Byte, y ∉ s.taEntries.map Prod.fst → t.validOf y = false ∧ t.codeOf y = ⟨[0], 0⟩) ∧
    ∀ (before after : List (Byte × Byte)) (y len : Byte),
      s.taEntries = before ++ (y, len) :: after → (before.map Prod.fst).Nodup →
      (before.map fun e => e.2.toNat).sum ≤ s.codes.size →
      (y ∈ before.map Prod.fst →
        ∃ t, exec .tableLoad s = .next t ∧ t.status = .fault .dupSymbol ∧ t.fault = true) ∧
      (y ∉ before.map Prod.fst →
        s.codes.size < (before.map fun e => e.2.toNat).sum + len.toNat →
        ∃ t, exec .tableLoad s = .next t ∧ t.status = .fault .index ∧ t.fault = true)

/-! ### The entry points -/

/-- R151, R178 to R183, R190: ENCODE from any state, the capacities that could stop it unbounded and IN
shorter than 2^59, completes: the table's keys are the symbols of IN, prefix-free, no code longer than
255 bits; DATA is the codes of IN one after another; BLOB is the container of the table and DATA. -/
def Obligations.EncodeWritesTheContainerOfItsInput : Prop :=
  ∀ s : State, s.fault = false → s.caps.bsCap = none → s.caps.blobCap = none →
    s.inBuf.length < 2 ^ 59 →
    ∃ t, exec .encodeInput s = .next t ∧ t.status = .ok ∧ t.response = [0x00] ∧
      (∀ y : Byte, t.validOf y = true ↔ y ∈ s.inBuf) ∧ PrefixFree t ∧
      (∀ y, t.validOf y = true → (t.codeOf y).size ≤ 255) ∧
      t.data = .ofBits (s.inBuf.flatMap (symbolBits t)) ∧
      containerBytes t.alphabet (t.alphabet.map fun y => BitVec.ofNat 8 (t.codeOf y).size)
        (t.alphabet.flatMap fun y => (t.codeOf y).bits) t.data.bits = .ok t.blob ∧
      t.inBuf = s.inBuf ∧ t.outBuf = s.outBuf ∧ t.cur = s.cur ∧ t.tmp = s.tmp ∧ t.fault = false ∧
      t.faultCause = s.faultCause

namespace Sys2Proof.Claims

/-- The instructions run one after another from `s`, each ending OK, and leave `t`. -/
def RunsTo : List Instr → State → State → Prop
  | [], s, t => t = s
  | i :: rest, s, t => ∃ u, exec i s = .next u ∧ u.status = .ok ∧ RunsTo rest u t

/-- The instructions run one after another from `s`, and the first that does not end OK ends with status
`e`. -/
def FailsWith : List Instr → State → Status → Prop
  | [], _, _ => False
  | i :: rest, s, e =>
    ∃ u, exec i s = .next u ∧ ((u.status ≠ .ok ∧ u.status = e) ∨ (u.status = .ok ∧ FailsWith rest u e))

/-- The stages of ENCODE (R190). -/
def encodeStages : List Instr := [.freqCount, .treeBuild, .tableDerive, .dataEncode, .hefSerialize]

/-- The stages of DECODE (R192). -/
def decodeStages : List Instr := [.hefDeserialize, .tableLoad, .treeFromTable, .treeDecode]

/-- The composite command `i` is its stages in order, stopping at the first raise. -/
def Composes (i : Instr) (stages : List Instr) : Prop :=
  ∀ s : State, s.fault = false →
    (∀ t, RunsTo stages s t → exec i s = .next t) ∧
    ∀ e, FailsWith stages s e → ∃ t, exec i s = .next t ∧ t.status = e

end Sys2Proof.Claims

/-- R190, R191: ENCODE depends on nothing but IN: two cores of the same capacities that hold the same
input end with the same status and, when it is OK, the same blob, table, tree, frequencies, data and tree
arrays. ENCODE is its five stages in order: where each ends OK it leaves the state they leave, and otherwise
it reports the first one's status that is not OK. No raise of it is any but E_CAPACITY. -/
def Obligations.EncodeDependsOnItsInputOnly : Prop :=
  (∀ s₁ s₂ t₁ t₂ : State, s₁.fault = false → s₂.fault = false → s₁.caps = s₂.caps →
    s₁.inBuf = s₂.inBuf → exec .encodeInput s₁ = .next t₁ → exec .encodeInput s₂ = .next t₂ →
    t₁.status = t₂.status ∧
    (t₁.status = .ok →
      t₁.blob = t₂.blob ∧ t₁.freq = t₂.freq ∧ t₁.sort = t₂.sort ∧ t₁.seq = t₂.seq ∧
      t₁.arena = t₂.arena ∧ t₁.code = t₂.code ∧ t₁.codeValid = t₂.codeValid ∧ t₁.path = t₂.path ∧
      t₁.data = t₂.data ∧ t₁.codes = t₂.codes ∧ t₁.taN = t₂.taN ∧ t₁.taSym = t₂.taSym ∧
      t₁.taLen = t₂.taLen)) ∧
  Composes .encodeInput encodeStages ∧
  ∀ s t : State, s.fault = false → exec .encodeInput s = .next t → t.status ≠ .ok →
    t.status = .callError .capacity

namespace Sys2Proof.Claims

/-- The code of a symbol in a list of entries, the placeholder bit for an empty one (R179). -/
def entryBits (entries : List (Byte × List Bool)) (y : Byte) : List Bool :=
  match entries.find? (fun e => e.1 == y) with
  | none => []
  | some e => if e.2 = [] then [false] else e.2

end Sys2Proof.Claims

/-- R162, R192, R193: DECODE of a container of any prefix-free table (entries in any order, at most 255
bits each) whose data bits are the codes of symbols of the table completes and appends exactly those
symbols to OUT; CUR is the container's length; the table's keys
are exactly the container's symbols, each with its code. -/
def Obligations.DecodeAppendsTheSymbols : Prop :=
  ∀ (s : State) (entries : List (Byte × List Bool)) (syms buf tail : List Byte),
    s.fault = false → s.caps.bsCap = none →
    capAllows s.caps.outCap (s.outBuf.length + syms.length) = true →
    (entries.map Prod.fst).Nodup → (∀ e ∈ entries, e.2.length ≤ 255) →
    entries.Pairwise (fun e e' => ¬ e.2 <+: e'.2 ∧ ¬ e'.2 <+: e.2) →
    (∀ y ∈ syms, y ∈ entries.map Prod.fst) →
    containerBytes (entries.map Prod.fst) (entries.map fun e => BitVec.ofNat 8 e.2.length)
      (entries.flatMap Prod.snd) (syms.flatMap (entryBits entries)) = .ok buf →
    s.blob = buf ++ tail →
    ∃ t, exec .decodeBlob s = .next t ∧ t.status = .ok ∧ t.response = [0x00] ∧
      t.outBuf = s.outBuf ++ syms ∧ t.cur = buf.length ∧
      (∀ e ∈ entries, t.validOf e.1 = true ∧ t.codeOf e.1 = .ofBits e.2) ∧
      (∀ y : Byte, y ∉ entries.map Prod.fst → t.validOf y = false) ∧
      t.inBuf = s.inBuf ∧ t.blob = s.blob ∧ t.freq = s.freq ∧ t.sort = s.sort ∧ t.seq = s.seq ∧
      t.path = s.path ∧ t.tmp = s.tmp ∧ t.fault = false ∧ t.faultCause = s.faultCause

/-- R192, R193, R228: DECODE depends on nothing but BLOB and OUT: two cores of the same capacities that
hold the same blob and the same output end with the same status and the same OUT (as it was, on a raise) and,
when the status is OK, with the same cursor, tree arrays, CODES, DATA, code table and tree. DECODE is its
four stages in order: where each ends OK it leaves the state they leave, and otherwise it reports the first
one's status that is not OK. -/
def Obligations.DecodeDependsOnBlobAndOutOnly : Prop :=
  (∀ s₁ s₂ t₁ t₂ : State, s₁.fault = false → s₂.fault = false → s₁.caps = s₂.caps →
    s₁.blob = s₂.blob → s₁.outBuf = s₂.outBuf → exec .decodeBlob s₁ = .next t₁ →
    exec .decodeBlob s₂ = .next t₂ →
    t₁.status = t₂.status ∧ t₁.outBuf = t₂.outBuf ∧ (t₁.status ≠ .ok → t₁.outBuf = s₁.outBuf) ∧
    (t₁.status = .ok →
      t₁.cur = t₂.cur ∧ t₁.taN = t₂.taN ∧ t₁.taSym = t₂.taSym ∧ t₁.taLen = t₂.taLen ∧
      t₁.codes = t₂.codes ∧ t₁.data = t₂.data ∧ t₁.code = t₂.code ∧
      t₁.codeValid = t₂.codeValid ∧ t₁.arena = t₂.arena)) ∧
  Composes .decodeBlob decodeStages

/-- R194: for every symbol list S shorter than 2^59, with capacities large enough for S and its blob (the
bounds written out), from any state with FAULT = 0: HostLoadIn(S); ENCODE; HostLoadOut(O); DECODE ends with
both commands OK and OUT = O ++ S. The four interactions stand in the model's queue (log 1). -/
def Obligations.EncodeThenDecodeGivesTheInputBack : Prop :=
  ∀ (s : State) (input out : List Byte), s.fault = false → input.length < 2 ^ 59 →
    capAllows s.caps.inCap input.length = true →
    capAllows s.caps.outCap (out.length + input.length) = true →
    capAllows s.caps.bsCap (65280 + 255 * input.length) = true →
    capAllows s.caps.blobCap (9000 + 32 * input.length) = true →
    s.pending = [.loadIn input, .command [0x42], .loadOut out, .command [0x43]] →
    ∃ m t : State, Host.Core.run Sys2Proof.core 2 s = .next m ∧ m.status = .ok ∧
      Host.Core.run Sys2Proof.core 4 s = .next t ∧ t.status = .ok ∧ t.fault = false ∧
      t.outBuf = out ++ input
end

