-- ==== Sys2Proof/Laws/State.lean ====
section
/-! SUPPORT. One lemma per field per update of the state, so that no proof unfolds a record update, and
the read-after-write laws of the bit-sequence registers and the code table. -/

namespace Sys2Proof.Machine

section Updates

variable (s : State)

/-! `State.finish` -/

@[simp] theorem State.finish_code (l : List Byte) : (s.finish l).code = s.code := rfl
@[simp] theorem State.finish_path (l : List Byte) : (s.finish l).path = s.path := rfl
@[simp] theorem State.finish_codes (l : List Byte) : (s.finish l).codes = s.codes := rfl
@[simp] theorem State.finish_data (l : List Byte) : (s.finish l).data = s.data := rfl
@[simp] theorem State.finish_tmp (l : List Byte) : (s.finish l).tmp = s.tmp := rfl
@[simp] theorem State.finish_freq (l : List Byte) : (s.finish l).freq = s.freq := rfl
@[simp] theorem State.finish_sort (l : List Byte) : (s.finish l).sort = s.sort := rfl
@[simp] theorem State.finish_seq (l : List Byte) : (s.finish l).seq = s.seq := rfl
@[simp] theorem State.finish_arena (l : List Byte) : (s.finish l).arena = s.arena := rfl
@[simp] theorem State.finish_codeValid (l : List Byte) : (s.finish l).codeValid = s.codeValid := rfl
@[simp] theorem State.finish_taN (l : List Byte) : (s.finish l).taN = s.taN := rfl
@[simp] theorem State.finish_taSym (l : List Byte) : (s.finish l).taSym = s.taSym := rfl
@[simp] theorem State.finish_taLen (l : List Byte) : (s.finish l).taLen = s.taLen := rfl
@[simp] theorem State.finish_inBuf (l : List Byte) : (s.finish l).inBuf = s.inBuf := rfl
@[simp] theorem State.finish_outBuf (l : List Byte) : (s.finish l).outBuf = s.outBuf := rfl
@[simp] theorem State.finish_blob (l : List Byte) : (s.finish l).blob = s.blob := rfl
@[simp] theorem State.finish_status (l : List Byte) : (s.finish l).status = .ok := rfl
@[simp] theorem State.finish_fault (l : List Byte) : (s.finish l).fault = s.fault := rfl
@[simp] theorem State.finish_faultCause (l : List Byte) : (s.finish l).faultCause = s.faultCause := rfl
@[simp] theorem State.finish_cur (l : List Byte) : (s.finish l).cur = s.cur := rfl
@[simp] theorem State.finish_caps (l : List Byte) : (s.finish l).caps = s.caps := rfl
@[simp] theorem State.finish_pending (l : List Byte) : (s.finish l).pending = s.pending := rfl
@[simp] theorem State.finish_response (l : List Byte) : (s.finish l).response = 0x00 :: l := rfl
@[simp] theorem State.finish_draws (l : List Byte) : (s.finish l).draws = s.draws := rfl

/-! `State.refuse` -/

@[simp] theorem State.refuse_code : (s.refuse).code = s.code := rfl
@[simp] theorem State.refuse_path : (s.refuse).path = s.path := rfl
@[simp] theorem State.refuse_codes : (s.refuse).codes = s.codes := rfl
@[simp] theorem State.refuse_data : (s.refuse).data = s.data := rfl
@[simp] theorem State.refuse_tmp : (s.refuse).tmp = s.tmp := rfl
@[simp] theorem State.refuse_freq : (s.refuse).freq = s.freq := rfl
@[simp] theorem State.refuse_sort : (s.refuse).sort = s.sort := rfl
@[simp] theorem State.refuse_seq : (s.refuse).seq = s.seq := rfl
@[simp] theorem State.refuse_arena : (s.refuse).arena = s.arena := rfl
@[simp] theorem State.refuse_codeValid : (s.refuse).codeValid = s.codeValid := rfl
@[simp] theorem State.refuse_taN : (s.refuse).taN = s.taN := rfl
@[simp] theorem State.refuse_taSym : (s.refuse).taSym = s.taSym := rfl
@[simp] theorem State.refuse_taLen : (s.refuse).taLen = s.taLen := rfl
@[simp] theorem State.refuse_inBuf : (s.refuse).inBuf = s.inBuf := rfl
@[simp] theorem State.refuse_outBuf : (s.refuse).outBuf = s.outBuf := rfl
@[simp] theorem State.refuse_blob : (s.refuse).blob = s.blob := rfl
@[simp] theorem State.refuse_status : (s.refuse).status = .faulted := rfl
@[simp] theorem State.refuse_fault : (s.refuse).fault = s.fault := rfl
@[simp] theorem State.refuse_faultCause : (s.refuse).faultCause = s.faultCause := rfl
@[simp] theorem State.refuse_cur : (s.refuse).cur = s.cur := rfl
@[simp] theorem State.refuse_caps : (s.refuse).caps = s.caps := rfl
@[simp] theorem State.refuse_pending : (s.refuse).pending = s.pending := rfl
@[simp] theorem State.refuse_response : (s.refuse).response = [0x1F] := rfl
@[simp] theorem State.refuse_draws : (s.refuse).draws = s.draws := rfl

/-! `State.setCode` -/

@[simp] theorem State.setCode_code (y : Byte) (v : BitSeq) : (s.setCode y v).code = s.code.set y.toNat v y.isLt := rfl
@[simp] theorem State.setCode_path (y : Byte) (v : BitSeq) : (s.setCode y v).path = s.path := rfl
@[simp] theorem State.setCode_codes (y : Byte) (v : BitSeq) : (s.setCode y v).codes = s.codes := rfl
@[simp] theorem State.setCode_data (y : Byte) (v : BitSeq) : (s.setCode y v).data = s.data := rfl
@[simp] theorem State.setCode_tmp (y : Byte) (v : BitSeq) : (s.setCode y v).tmp = s.tmp := rfl
@[simp] theorem State.setCode_freq (y : Byte) (v : BitSeq) : (s.setCode y v).freq = s.freq := rfl
@[simp] theorem State.setCode_sort (y : Byte) (v : BitSeq) : (s.setCode y v).sort = s.sort := rfl
@[simp] theorem State.setCode_seq (y : Byte) (v : BitSeq) : (s.setCode y v).seq = s.seq := rfl
@[simp] theorem State.setCode_arena (y : Byte) (v : BitSeq) : (s.setCode y v).arena = s.arena := rfl
@[simp] theorem State.setCode_codeValid (y : Byte) (v : BitSeq) : (s.setCode y v).codeValid = s.codeValid.set y.toNat true y.isLt := rfl
@[simp] theorem State.setCode_taN (y : Byte) (v : BitSeq) : (s.setCode y v).taN = s.taN := rfl
@[simp] theorem State.setCode_taSym (y : Byte) (v : BitSeq) : (s.setCode y v).taSym = s.taSym := rfl
@[simp] theorem State.setCode_taLen (y : Byte) (v : BitSeq) : (s.setCode y v).taLen = s.taLen := rfl
@[simp] theorem State.setCode_inBuf (y : Byte) (v : BitSeq) : (s.setCode y v).inBuf = s.inBuf := rfl
@[simp] theorem State.setCode_outBuf (y : Byte) (v : BitSeq) : (s.setCode y v).outBuf = s.outBuf := rfl
@[simp] theorem State.setCode_blob (y : Byte) (v : BitSeq) : (s.setCode y v).blob = s.blob := rfl
@[simp] theorem State.setCode_status (y : Byte) (v : BitSeq) : (s.setCode y v).status = s.status := rfl
@[simp] theorem State.setCode_fault (y : Byte) (v : BitSeq) : (s.setCode y v).fault = s.fault := rfl
@[simp] theorem State.setCode_faultCause (y : Byte) (v : BitSeq) : (s.setCode y v).faultCause = s.faultCause := rfl
@[simp] theorem State.setCode_cur (y : Byte) (v : BitSeq) : (s.setCode y v).cur = s.cur := rfl
@[simp] theorem State.setCode_caps (y : Byte) (v : BitSeq) : (s.setCode y v).caps = s.caps := rfl
@[simp] theorem State.setCode_pending (y : Byte) (v : BitSeq) : (s.setCode y v).pending = s.pending := rfl
@[simp] theorem State.setCode_response (y : Byte) (v : BitSeq) : (s.setCode y v).response = s.response := rfl
@[simp] theorem State.setCode_draws (y : Byte) (v : BitSeq) : (s.setCode y v).draws = s.draws := rfl

/-! `State.clearTable` -/

@[simp] theorem State.clearTable_code : (s.clearTable).code = Vector.replicate 256 .empty := rfl
@[simp] theorem State.clearTable_path : (s.clearTable).path = s.path := rfl
@[simp] theorem State.clearTable_codes : (s.clearTable).codes = s.codes := rfl
@[simp] theorem State.clearTable_data : (s.clearTable).data = s.data := rfl
@[simp] theorem State.clearTable_tmp : (s.clearTable).tmp = s.tmp := rfl
@[simp] theorem State.clearTable_freq : (s.clearTable).freq = s.freq := rfl
@[simp] theorem State.clearTable_sort : (s.clearTable).sort = s.sort := rfl
@[simp] theorem State.clearTable_seq : (s.clearTable).seq = s.seq := rfl
@[simp] theorem State.clearTable_arena : (s.clearTable).arena = s.arena := rfl
@[simp] theorem State.clearTable_codeValid : (s.clearTable).codeValid = Vector.replicate 256 false := rfl
@[simp] theorem State.clearTable_taN : (s.clearTable).taN = s.taN := rfl
@[simp] theorem State.clearTable_taSym : (s.clearTable).taSym = s.taSym := rfl
@[simp] theorem State.clearTable_taLen : (s.clearTable).taLen = s.taLen := rfl
@[simp] theorem State.clearTable_inBuf : (s.clearTable).inBuf = s.inBuf := rfl
@[simp] theorem State.clearTable_outBuf : (s.clearTable).outBuf = s.outBuf := rfl
@[simp] theorem State.clearTable_blob : (s.clearTable).blob = s.blob := rfl
@[simp] theorem State.clearTable_status : (s.clearTable).status = s.status := rfl
@[simp] theorem State.clearTable_fault : (s.clearTable).fault = s.fault := rfl
@[simp] theorem State.clearTable_faultCause : (s.clearTable).faultCause = s.faultCause := rfl
@[simp] theorem State.clearTable_cur : (s.clearTable).cur = s.cur := rfl
@[simp] theorem State.clearTable_caps : (s.clearTable).caps = s.caps := rfl
@[simp] theorem State.clearTable_pending : (s.clearTable).pending = s.pending := rfl
@[simp] theorem State.clearTable_response : (s.clearTable).response = s.response := rfl
@[simp] theorem State.clearTable_draws : (s.clearTable).draws = s.draws := rfl

/-! `State.hostReset` -/

@[simp] theorem State.hostReset_code : (s.hostReset).code = State.reset.code := rfl
@[simp] theorem State.hostReset_path : (s.hostReset).path = State.reset.path := rfl
@[simp] theorem State.hostReset_codes : (s.hostReset).codes = State.reset.codes := rfl
@[simp] theorem State.hostReset_data : (s.hostReset).data = State.reset.data := rfl
@[simp] theorem State.hostReset_tmp : (s.hostReset).tmp = State.reset.tmp := rfl
@[simp] theorem State.hostReset_freq : (s.hostReset).freq = State.reset.freq := rfl
@[simp] theorem State.hostReset_sort : (s.hostReset).sort = State.reset.sort := rfl
@[simp] theorem State.hostReset_seq : (s.hostReset).seq = State.reset.seq := rfl
@[simp] theorem State.hostReset_arena : (s.hostReset).arena = State.reset.arena := rfl
@[simp] theorem State.hostReset_codeValid : (s.hostReset).codeValid = State.reset.codeValid := rfl
@[simp] theorem State.hostReset_taN : (s.hostReset).taN = State.reset.taN := rfl
@[simp] theorem State.hostReset_taSym : (s.hostReset).taSym = State.reset.taSym := rfl
@[simp] theorem State.hostReset_taLen : (s.hostReset).taLen = State.reset.taLen := rfl
@[simp] theorem State.hostReset_inBuf : (s.hostReset).inBuf = State.reset.inBuf := rfl
@[simp] theorem State.hostReset_outBuf : (s.hostReset).outBuf = State.reset.outBuf := rfl
@[simp] theorem State.hostReset_blob : (s.hostReset).blob = State.reset.blob := rfl
@[simp] theorem State.hostReset_status : (s.hostReset).status = State.reset.status := rfl
@[simp] theorem State.hostReset_fault : (s.hostReset).fault = State.reset.fault := rfl
@[simp] theorem State.hostReset_faultCause : (s.hostReset).faultCause = State.reset.faultCause := rfl
@[simp] theorem State.hostReset_cur : (s.hostReset).cur = State.reset.cur := rfl
@[simp] theorem State.hostReset_caps : (s.hostReset).caps = s.caps := rfl
@[simp] theorem State.hostReset_pending : (s.hostReset).pending = s.pending := rfl
@[simp] theorem State.hostReset_response : (s.hostReset).response = State.reset.response := rfl
@[simp] theorem State.hostReset_draws : (s.hostReset).draws = s.draws := rfl

/-! `State.drawTable` -/

@[simp] theorem State.drawTable_code : (s.drawTable).code = Vector.ofFn fun i => drawSeq s.caps s.draws i.val := by simp only [State.drawTable]
@[simp] theorem State.drawTable_path : (s.drawTable).path = s.path := by simp only [State.drawTable]
@[simp] theorem State.drawTable_codes : (s.drawTable).codes = s.codes := by simp only [State.drawTable]
@[simp] theorem State.drawTable_data : (s.drawTable).data = s.data := by simp only [State.drawTable]
@[simp] theorem State.drawTable_tmp : (s.drawTable).tmp = s.tmp := by simp only [State.drawTable]
@[simp] theorem State.drawTable_freq : (s.drawTable).freq = s.freq := by simp only [State.drawTable]
@[simp] theorem State.drawTable_sort : (s.drawTable).sort = s.sort := by simp only [State.drawTable]
@[simp] theorem State.drawTable_seq : (s.drawTable).seq = s.seq := by simp only [State.drawTable]
@[simp] theorem State.drawTable_arena : (s.drawTable).arena = s.arena := by simp only [State.drawTable]
@[simp] theorem State.drawTable_codeValid : (s.drawTable).codeValid = Vector.ofFn fun i => Config.freeValid s.draws i.val := by simp only [State.drawTable]
@[simp] theorem State.drawTable_taN : (s.drawTable).taN = s.taN := by simp only [State.drawTable]
@[simp] theorem State.drawTable_taSym : (s.drawTable).taSym = s.taSym := by simp only [State.drawTable]
@[simp] theorem State.drawTable_taLen : (s.drawTable).taLen = s.taLen := by simp only [State.drawTable]
@[simp] theorem State.drawTable_inBuf : (s.drawTable).inBuf = s.inBuf := by simp only [State.drawTable]
@[simp] theorem State.drawTable_outBuf : (s.drawTable).outBuf = s.outBuf := by simp only [State.drawTable]
@[simp] theorem State.drawTable_blob : (s.drawTable).blob = s.blob := by simp only [State.drawTable]
@[simp] theorem State.drawTable_status : (s.drawTable).status = s.status := by simp only [State.drawTable]
@[simp] theorem State.drawTable_fault : (s.drawTable).fault = s.fault := by simp only [State.drawTable]
@[simp] theorem State.drawTable_faultCause : (s.drawTable).faultCause = s.faultCause := by simp only [State.drawTable]
@[simp] theorem State.drawTable_cur : (s.drawTable).cur = s.cur := by simp only [State.drawTable]
@[simp] theorem State.drawTable_caps : (s.drawTable).caps = s.caps := by simp only [State.drawTable]
@[simp] theorem State.drawTable_pending : (s.drawTable).pending = s.pending := by simp only [State.drawTable]
@[simp] theorem State.drawTable_response : (s.drawTable).response = s.response := by simp only [State.drawTable]
@[simp] theorem State.drawTable_draws : (s.drawTable).draws = s.draws := by simp only [State.drawTable]

/-! `State.drawPath` -/

@[simp] theorem State.drawPath_code : (s.drawPath).code = s.code := rfl
@[simp] theorem State.drawPath_path : (s.drawPath).path = drawSeq s.caps s.draws 256 := rfl
@[simp] theorem State.drawPath_codes : (s.drawPath).codes = s.codes := rfl
@[simp] theorem State.drawPath_data : (s.drawPath).data = s.data := rfl
@[simp] theorem State.drawPath_tmp : (s.drawPath).tmp = s.tmp := rfl
@[simp] theorem State.drawPath_freq : (s.drawPath).freq = s.freq := rfl
@[simp] theorem State.drawPath_sort : (s.drawPath).sort = s.sort := rfl
@[simp] theorem State.drawPath_seq : (s.drawPath).seq = s.seq := rfl
@[simp] theorem State.drawPath_arena : (s.drawPath).arena = s.arena := rfl
@[simp] theorem State.drawPath_codeValid : (s.drawPath).codeValid = s.codeValid := rfl
@[simp] theorem State.drawPath_taN : (s.drawPath).taN = s.taN := rfl
@[simp] theorem State.drawPath_taSym : (s.drawPath).taSym = s.taSym := rfl
@[simp] theorem State.drawPath_taLen : (s.drawPath).taLen = s.taLen := rfl
@[simp] theorem State.drawPath_inBuf : (s.drawPath).inBuf = s.inBuf := rfl
@[simp] theorem State.drawPath_outBuf : (s.drawPath).outBuf = s.outBuf := rfl
@[simp] theorem State.drawPath_blob : (s.drawPath).blob = s.blob := rfl
@[simp] theorem State.drawPath_status : (s.drawPath).status = s.status := rfl
@[simp] theorem State.drawPath_fault : (s.drawPath).fault = s.fault := rfl
@[simp] theorem State.drawPath_faultCause : (s.drawPath).faultCause = s.faultCause := rfl
@[simp] theorem State.drawPath_cur : (s.drawPath).cur = s.cur := rfl
@[simp] theorem State.drawPath_caps : (s.drawPath).caps = s.caps := rfl
@[simp] theorem State.drawPath_pending : (s.drawPath).pending = s.pending := rfl
@[simp] theorem State.drawPath_response : (s.drawPath).response = s.response := rfl
@[simp] theorem State.drawPath_draws : (s.drawPath).draws = s.draws := rfl

/-! `State.drawCodes` -/

@[simp] theorem State.drawCodes_code : (s.drawCodes).code = s.code := rfl
@[simp] theorem State.drawCodes_path : (s.drawCodes).path = s.path := rfl
@[simp] theorem State.drawCodes_codes : (s.drawCodes).codes = drawSeq s.caps s.draws 257 := rfl
@[simp] theorem State.drawCodes_data : (s.drawCodes).data = s.data := rfl
@[simp] theorem State.drawCodes_tmp : (s.drawCodes).tmp = s.tmp := rfl
@[simp] theorem State.drawCodes_freq : (s.drawCodes).freq = s.freq := rfl
@[simp] theorem State.drawCodes_sort : (s.drawCodes).sort = s.sort := rfl
@[simp] theorem State.drawCodes_seq : (s.drawCodes).seq = s.seq := rfl
@[simp] theorem State.drawCodes_arena : (s.drawCodes).arena = s.arena := rfl
@[simp] theorem State.drawCodes_codeValid : (s.drawCodes).codeValid = s.codeValid := rfl
@[simp] theorem State.drawCodes_taN : (s.drawCodes).taN = s.taN := rfl
@[simp] theorem State.drawCodes_taSym : (s.drawCodes).taSym = s.taSym := rfl
@[simp] theorem State.drawCodes_taLen : (s.drawCodes).taLen = s.taLen := rfl
@[simp] theorem State.drawCodes_inBuf : (s.drawCodes).inBuf = s.inBuf := rfl
@[simp] theorem State.drawCodes_outBuf : (s.drawCodes).outBuf = s.outBuf := rfl
@[simp] theorem State.drawCodes_blob : (s.drawCodes).blob = s.blob := rfl
@[simp] theorem State.drawCodes_status : (s.drawCodes).status = s.status := rfl
@[simp] theorem State.drawCodes_fault : (s.drawCodes).fault = s.fault := rfl
@[simp] theorem State.drawCodes_faultCause : (s.drawCodes).faultCause = s.faultCause := rfl
@[simp] theorem State.drawCodes_cur : (s.drawCodes).cur = s.cur := rfl
@[simp] theorem State.drawCodes_caps : (s.drawCodes).caps = s.caps := rfl
@[simp] theorem State.drawCodes_pending : (s.drawCodes).pending = s.pending := rfl
@[simp] theorem State.drawCodes_response : (s.drawCodes).response = s.response := rfl
@[simp] theorem State.drawCodes_draws : (s.drawCodes).draws = s.draws := rfl

/-! `State.drawData` -/

@[simp] theorem State.drawData_code : (s.drawData).code = s.code := rfl
@[simp] theorem State.drawData_path : (s.drawData).path = s.path := rfl
@[simp] theorem State.drawData_codes : (s.drawData).codes = s.codes := rfl
@[simp] theorem State.drawData_data : (s.drawData).data = drawSeq s.caps s.draws 258 := rfl
@[simp] theorem State.drawData_tmp : (s.drawData).tmp = s.tmp := rfl
@[simp] theorem State.drawData_freq : (s.drawData).freq = s.freq := rfl
@[simp] theorem State.drawData_sort : (s.drawData).sort = s.sort := rfl
@[simp] theorem State.drawData_seq : (s.drawData).seq = s.seq := rfl
@[simp] theorem State.drawData_arena : (s.drawData).arena = s.arena := rfl
@[simp] theorem State.drawData_codeValid : (s.drawData).codeValid = s.codeValid := rfl
@[simp] theorem State.drawData_taN : (s.drawData).taN = s.taN := rfl
@[simp] theorem State.drawData_taSym : (s.drawData).taSym = s.taSym := rfl
@[simp] theorem State.drawData_taLen : (s.drawData).taLen = s.taLen := rfl
@[simp] theorem State.drawData_inBuf : (s.drawData).inBuf = s.inBuf := rfl
@[simp] theorem State.drawData_outBuf : (s.drawData).outBuf = s.outBuf := rfl
@[simp] theorem State.drawData_blob : (s.drawData).blob = s.blob := rfl
@[simp] theorem State.drawData_status : (s.drawData).status = s.status := rfl
@[simp] theorem State.drawData_fault : (s.drawData).fault = s.fault := rfl
@[simp] theorem State.drawData_faultCause : (s.drawData).faultCause = s.faultCause := rfl
@[simp] theorem State.drawData_cur : (s.drawData).cur = s.cur := rfl
@[simp] theorem State.drawData_caps : (s.drawData).caps = s.caps := rfl
@[simp] theorem State.drawData_pending : (s.drawData).pending = s.pending := rfl
@[simp] theorem State.drawData_response : (s.drawData).response = s.response := rfl
@[simp] theorem State.drawData_draws : (s.drawData).draws = s.draws := rfl

/-! `State.drawTa` -/

@[simp] theorem State.drawTa_code : (s.drawTa).code = s.code := by simp only [State.drawTa]
@[simp] theorem State.drawTa_path : (s.drawTa).path = s.path := by simp only [State.drawTa]
@[simp] theorem State.drawTa_codes : (s.drawTa).codes = s.codes := by simp only [State.drawTa]
@[simp] theorem State.drawTa_data : (s.drawTa).data = s.data := by simp only [State.drawTa]
@[simp] theorem State.drawTa_tmp : (s.drawTa).tmp = s.tmp := by simp only [State.drawTa]
@[simp] theorem State.drawTa_freq : (s.drawTa).freq = s.freq := by simp only [State.drawTa]
@[simp] theorem State.drawTa_sort : (s.drawTa).sort = s.sort := by simp only [State.drawTa]
@[simp] theorem State.drawTa_seq : (s.drawTa).seq = s.seq := by simp only [State.drawTa]
@[simp] theorem State.drawTa_arena : (s.drawTa).arena = s.arena := by simp only [State.drawTa]
@[simp] theorem State.drawTa_codeValid : (s.drawTa).codeValid = s.codeValid := by simp only [State.drawTa]
@[simp] theorem State.drawTa_taN : (s.drawTa).taN = min 256 (Config.freeTaN s.draws) := by simp only [State.drawTa]
@[simp] theorem State.drawTa_taSym : (s.drawTa).taSym = Vector.ofFn fun i => Config.freeTaSym s.draws i.val := by simp only [State.drawTa]
@[simp] theorem State.drawTa_taLen : (s.drawTa).taLen = Vector.ofFn fun i => Config.freeTaLen s.draws i.val := by simp only [State.drawTa]
@[simp] theorem State.drawTa_inBuf : (s.drawTa).inBuf = s.inBuf := by simp only [State.drawTa]
@[simp] theorem State.drawTa_outBuf : (s.drawTa).outBuf = s.outBuf := by simp only [State.drawTa]
@[simp] theorem State.drawTa_blob : (s.drawTa).blob = s.blob := by simp only [State.drawTa]
@[simp] theorem State.drawTa_status : (s.drawTa).status = s.status := by simp only [State.drawTa]
@[simp] theorem State.drawTa_fault : (s.drawTa).fault = s.fault := by simp only [State.drawTa]
@[simp] theorem State.drawTa_faultCause : (s.drawTa).faultCause = s.faultCause := by simp only [State.drawTa]
@[simp] theorem State.drawTa_cur : (s.drawTa).cur = s.cur := by simp only [State.drawTa]
@[simp] theorem State.drawTa_caps : (s.drawTa).caps = s.caps := by simp only [State.drawTa]
@[simp] theorem State.drawTa_pending : (s.drawTa).pending = s.pending := by simp only [State.drawTa]
@[simp] theorem State.drawTa_response : (s.drawTa).response = s.response := by simp only [State.drawTa]
@[simp] theorem State.drawTa_draws : (s.drawTa).draws = s.draws := by simp only [State.drawTa]

/-! `State.drawCur` -/

@[simp] theorem State.drawCur_code : (s.drawCur).code = s.code := rfl
@[simp] theorem State.drawCur_path : (s.drawCur).path = s.path := rfl
@[simp] theorem State.drawCur_codes : (s.drawCur).codes = s.codes := rfl
@[simp] theorem State.drawCur_data : (s.drawCur).data = s.data := rfl
@[simp] theorem State.drawCur_tmp : (s.drawCur).tmp = s.tmp := rfl
@[simp] theorem State.drawCur_freq : (s.drawCur).freq = s.freq := rfl
@[simp] theorem State.drawCur_sort : (s.drawCur).sort = s.sort := rfl
@[simp] theorem State.drawCur_seq : (s.drawCur).seq = s.seq := rfl
@[simp] theorem State.drawCur_arena : (s.drawCur).arena = s.arena := rfl
@[simp] theorem State.drawCur_codeValid : (s.drawCur).codeValid = s.codeValid := rfl
@[simp] theorem State.drawCur_taN : (s.drawCur).taN = s.taN := rfl
@[simp] theorem State.drawCur_taSym : (s.drawCur).taSym = s.taSym := rfl
@[simp] theorem State.drawCur_taLen : (s.drawCur).taLen = s.taLen := rfl
@[simp] theorem State.drawCur_inBuf : (s.drawCur).inBuf = s.inBuf := rfl
@[simp] theorem State.drawCur_outBuf : (s.drawCur).outBuf = s.outBuf := rfl
@[simp] theorem State.drawCur_blob : (s.drawCur).blob = s.blob := rfl
@[simp] theorem State.drawCur_status : (s.drawCur).status = s.status := rfl
@[simp] theorem State.drawCur_fault : (s.drawCur).fault = s.fault := rfl
@[simp] theorem State.drawCur_faultCause : (s.drawCur).faultCause = s.faultCause := rfl
@[simp] theorem State.drawCur_cur : (s.drawCur).cur = min s.blob.length (Config.freeCur s.draws) := rfl
@[simp] theorem State.drawCur_caps : (s.drawCur).caps = s.caps := rfl
@[simp] theorem State.drawCur_pending : (s.drawCur).pending = s.pending := rfl
@[simp] theorem State.drawCur_response : (s.drawCur).response = s.response := rfl
@[simp] theorem State.drawCur_draws : (s.drawCur).draws = s.draws := rfl

/-! `State.drawFreq` -/

@[simp] theorem State.drawFreq_code : (s.drawFreq).code = s.code := by simp only [State.drawFreq]
@[simp] theorem State.drawFreq_path : (s.drawFreq).path = s.path := by simp only [State.drawFreq]
@[simp] theorem State.drawFreq_codes : (s.drawFreq).codes = s.codes := by simp only [State.drawFreq]
@[simp] theorem State.drawFreq_data : (s.drawFreq).data = s.data := by simp only [State.drawFreq]
@[simp] theorem State.drawFreq_tmp : (s.drawFreq).tmp = s.tmp := by simp only [State.drawFreq]
@[simp] theorem State.drawFreq_sort : (s.drawFreq).sort = s.sort := by simp only [State.drawFreq]
@[simp] theorem State.drawFreq_seq : (s.drawFreq).seq = s.seq := by simp only [State.drawFreq]
@[simp] theorem State.drawFreq_arena : (s.drawFreq).arena = s.arena := by simp only [State.drawFreq]
@[simp] theorem State.drawFreq_codeValid : (s.drawFreq).codeValid = s.codeValid := by simp only [State.drawFreq]
@[simp] theorem State.drawFreq_taN : (s.drawFreq).taN = s.taN := by simp only [State.drawFreq]
@[simp] theorem State.drawFreq_taSym : (s.drawFreq).taSym = s.taSym := by simp only [State.drawFreq]
@[simp] theorem State.drawFreq_taLen : (s.drawFreq).taLen = s.taLen := by simp only [State.drawFreq]
@[simp] theorem State.drawFreq_inBuf : (s.drawFreq).inBuf = s.inBuf := by simp only [State.drawFreq]
@[simp] theorem State.drawFreq_outBuf : (s.drawFreq).outBuf = s.outBuf := by simp only [State.drawFreq]
@[simp] theorem State.drawFreq_blob : (s.drawFreq).blob = s.blob := by simp only [State.drawFreq]
@[simp] theorem State.drawFreq_status : (s.drawFreq).status = s.status := by simp only [State.drawFreq]
@[simp] theorem State.drawFreq_fault : (s.drawFreq).fault = s.fault := by simp only [State.drawFreq]
@[simp] theorem State.drawFreq_faultCause : (s.drawFreq).faultCause = s.faultCause := by simp only [State.drawFreq]
@[simp] theorem State.drawFreq_cur : (s.drawFreq).cur = s.cur := by simp only [State.drawFreq]
@[simp] theorem State.drawFreq_caps : (s.drawFreq).caps = s.caps := by simp only [State.drawFreq]
@[simp] theorem State.drawFreq_pending : (s.drawFreq).pending = s.pending := by simp only [State.drawFreq]
@[simp] theorem State.drawFreq_response : (s.drawFreq).response = s.response := by simp only [State.drawFreq]
@[simp] theorem State.drawFreq_draws : (s.drawFreq).draws = s.draws := by simp only [State.drawFreq]

/-! `State.drawSort` -/

@[simp] theorem State.drawSort_code : (s.drawSort).code = s.code := by simp only [State.drawSort]
@[simp] theorem State.drawSort_path : (s.drawSort).path = s.path := by simp only [State.drawSort]
@[simp] theorem State.drawSort_codes : (s.drawSort).codes = s.codes := by simp only [State.drawSort]
@[simp] theorem State.drawSort_data : (s.drawSort).data = s.data := by simp only [State.drawSort]
@[simp] theorem State.drawSort_tmp : (s.drawSort).tmp = s.tmp := by simp only [State.drawSort]
@[simp] theorem State.drawSort_freq : (s.drawSort).freq = s.freq := by simp only [State.drawSort]
@[simp] theorem State.drawSort_seq : (s.drawSort).seq = (Config.freeSeq s.draws).toNat := by simp only [State.drawSort]
@[simp] theorem State.drawSort_arena : (s.drawSort).arena = s.arena := by simp only [State.drawSort]
@[simp] theorem State.drawSort_codeValid : (s.drawSort).codeValid = s.codeValid := by simp only [State.drawSort]
@[simp] theorem State.drawSort_taN : (s.drawSort).taN = s.taN := by simp only [State.drawSort]
@[simp] theorem State.drawSort_taSym : (s.drawSort).taSym = s.taSym := by simp only [State.drawSort]
@[simp] theorem State.drawSort_taLen : (s.drawSort).taLen = s.taLen := by simp only [State.drawSort]
@[simp] theorem State.drawSort_inBuf : (s.drawSort).inBuf = s.inBuf := by simp only [State.drawSort]
@[simp] theorem State.drawSort_outBuf : (s.drawSort).outBuf = s.outBuf := by simp only [State.drawSort]
@[simp] theorem State.drawSort_blob : (s.drawSort).blob = s.blob := by simp only [State.drawSort]
@[simp] theorem State.drawSort_status : (s.drawSort).status = s.status := by simp only [State.drawSort]
@[simp] theorem State.drawSort_fault : (s.drawSort).fault = s.fault := by simp only [State.drawSort]
@[simp] theorem State.drawSort_faultCause : (s.drawSort).faultCause = s.faultCause := by simp only [State.drawSort]
@[simp] theorem State.drawSort_cur : (s.drawSort).cur = s.cur := by simp only [State.drawSort]
@[simp] theorem State.drawSort_caps : (s.drawSort).caps = s.caps := by simp only [State.drawSort]
@[simp] theorem State.drawSort_pending : (s.drawSort).pending = s.pending := by simp only [State.drawSort]
@[simp] theorem State.drawSort_response : (s.drawSort).response = s.response := by simp only [State.drawSort]
@[simp] theorem State.drawSort_draws : (s.drawSort).draws = s.draws := by simp only [State.drawSort]

/-! `State.drawArena` -/

@[simp] theorem State.drawArena_code : (s.drawArena).code = s.code := by simp only [State.drawArena]
@[simp] theorem State.drawArena_path : (s.drawArena).path = s.path := by simp only [State.drawArena]
@[simp] theorem State.drawArena_codes : (s.drawArena).codes = s.codes := by simp only [State.drawArena]
@[simp] theorem State.drawArena_data : (s.drawArena).data = s.data := by simp only [State.drawArena]
@[simp] theorem State.drawArena_tmp : (s.drawArena).tmp = s.tmp := by simp only [State.drawArena]
@[simp] theorem State.drawArena_freq : (s.drawArena).freq = s.freq := by simp only [State.drawArena]
@[simp] theorem State.drawArena_sort : (s.drawArena).sort = s.sort := by simp only [State.drawArena]
@[simp] theorem State.drawArena_seq : (s.drawArena).seq = s.seq := by simp only [State.drawArena]
@[simp] theorem State.drawArena_codeValid : (s.drawArena).codeValid = s.codeValid := by simp only [State.drawArena]
@[simp] theorem State.drawArena_taN : (s.drawArena).taN = s.taN := by simp only [State.drawArena]
@[simp] theorem State.drawArena_taSym : (s.drawArena).taSym = s.taSym := by simp only [State.drawArena]
@[simp] theorem State.drawArena_taLen : (s.drawArena).taLen = s.taLen := by simp only [State.drawArena]
@[simp] theorem State.drawArena_inBuf : (s.drawArena).inBuf = s.inBuf := by simp only [State.drawArena]
@[simp] theorem State.drawArena_outBuf : (s.drawArena).outBuf = s.outBuf := by simp only [State.drawArena]
@[simp] theorem State.drawArena_blob : (s.drawArena).blob = s.blob := by simp only [State.drawArena]
@[simp] theorem State.drawArena_status : (s.drawArena).status = s.status := by simp only [State.drawArena]
@[simp] theorem State.drawArena_fault : (s.drawArena).fault = s.fault := by simp only [State.drawArena]
@[simp] theorem State.drawArena_faultCause : (s.drawArena).faultCause = s.faultCause := by simp only [State.drawArena]
@[simp] theorem State.drawArena_cur : (s.drawArena).cur = s.cur := by simp only [State.drawArena]
@[simp] theorem State.drawArena_caps : (s.drawArena).caps = s.caps := by simp only [State.drawArena]
@[simp] theorem State.drawArena_pending : (s.drawArena).pending = s.pending := by simp only [State.drawArena]
@[simp] theorem State.drawArena_response : (s.drawArena).response = s.response := by simp only [State.drawArena]
@[simp] theorem State.drawArena_draws : (s.drawArena).draws = s.draws := by simp only [State.drawArena]

/-! `State.drawn` -/

@[simp] theorem State.drawn_code : (s.drawn).code = s.code := rfl
@[simp] theorem State.drawn_path : (s.drawn).path = s.path := rfl
@[simp] theorem State.drawn_codes : (s.drawn).codes = s.codes := rfl
@[simp] theorem State.drawn_data : (s.drawn).data = s.data := rfl
@[simp] theorem State.drawn_tmp : (s.drawn).tmp = s.tmp := rfl
@[simp] theorem State.drawn_freq : (s.drawn).freq = s.freq := rfl
@[simp] theorem State.drawn_sort : (s.drawn).sort = s.sort := rfl
@[simp] theorem State.drawn_seq : (s.drawn).seq = s.seq := rfl
@[simp] theorem State.drawn_arena : (s.drawn).arena = s.arena := rfl
@[simp] theorem State.drawn_codeValid : (s.drawn).codeValid = s.codeValid := rfl
@[simp] theorem State.drawn_taN : (s.drawn).taN = s.taN := rfl
@[simp] theorem State.drawn_taSym : (s.drawn).taSym = s.taSym := rfl
@[simp] theorem State.drawn_taLen : (s.drawn).taLen = s.taLen := rfl
@[simp] theorem State.drawn_inBuf : (s.drawn).inBuf = s.inBuf := rfl
@[simp] theorem State.drawn_outBuf : (s.drawn).outBuf = s.outBuf := rfl
@[simp] theorem State.drawn_blob : (s.drawn).blob = s.blob := rfl
@[simp] theorem State.drawn_status : (s.drawn).status = s.status := rfl
@[simp] theorem State.drawn_fault : (s.drawn).fault = s.fault := rfl
@[simp] theorem State.drawn_faultCause : (s.drawn).faultCause = s.faultCause := rfl
@[simp] theorem State.drawn_cur : (s.drawn).cur = s.cur := rfl
@[simp] theorem State.drawn_caps : (s.drawn).caps = s.caps := rfl
@[simp] theorem State.drawn_pending : (s.drawn).pending = s.pending := rfl
@[simp] theorem State.drawn_response : (s.drawn).response = s.response := rfl
@[simp] theorem State.drawn_draws : (s.drawn).draws = s.draws + 1 := rfl

/-! `State.raise` -/

@[simp] theorem State.raise_code (r : Raise) : (s.raise r).code = s.code := by cases r <;> rfl
@[simp] theorem State.raise_path (r : Raise) : (s.raise r).path = s.path := by cases r <;> rfl
@[simp] theorem State.raise_codes (r : Raise) : (s.raise r).codes = s.codes := by cases r <;> rfl
@[simp] theorem State.raise_data (r : Raise) : (s.raise r).data = s.data := by cases r <;> rfl
@[simp] theorem State.raise_tmp (r : Raise) : (s.raise r).tmp = s.tmp := by cases r <;> rfl
@[simp] theorem State.raise_freq (r : Raise) : (s.raise r).freq = s.freq := by cases r <;> rfl
@[simp] theorem State.raise_sort (r : Raise) : (s.raise r).sort = s.sort := by cases r <;> rfl
@[simp] theorem State.raise_seq (r : Raise) : (s.raise r).seq = s.seq := by cases r <;> rfl
@[simp] theorem State.raise_arena (r : Raise) : (s.raise r).arena = s.arena := by cases r <;> rfl
@[simp] theorem State.raise_codeValid (r : Raise) : (s.raise r).codeValid = s.codeValid := by cases r <;> rfl
@[simp] theorem State.raise_taN (r : Raise) : (s.raise r).taN = s.taN := by cases r <;> rfl
@[simp] theorem State.raise_taSym (r : Raise) : (s.raise r).taSym = s.taSym := by cases r <;> rfl
@[simp] theorem State.raise_taLen (r : Raise) : (s.raise r).taLen = s.taLen := by cases r <;> rfl
@[simp] theorem State.raise_inBuf (r : Raise) : (s.raise r).inBuf = s.inBuf := by cases r <;> rfl
@[simp] theorem State.raise_outBuf (r : Raise) : (s.raise r).outBuf = s.outBuf := by cases r <;> rfl
@[simp] theorem State.raise_blob (r : Raise) : (s.raise r).blob = s.blob := by cases r <;> rfl
@[simp] theorem State.raise_cur (r : Raise) : (s.raise r).cur = s.cur := by cases r <;> rfl
@[simp] theorem State.raise_caps (r : Raise) : (s.raise r).caps = s.caps := by cases r <;> rfl
@[simp] theorem State.raise_pending (r : Raise) : (s.raise r).pending = s.pending := by cases r <;> rfl
@[simp] theorem State.raise_draws (r : Raise) : (s.raise r).draws = s.draws := by cases r <;> rfl

@[simp] theorem State.raise_call_status (e : CallError) :
    (s.raise (.call e)).status = .callError e := rfl
@[simp] theorem State.raise_call_fault (e : CallError) : (s.raise (.call e)).fault = s.fault := rfl
@[simp] theorem State.raise_call_faultCause (e : CallError) :
    (s.raise (.call e)).faultCause = s.faultCause := rfl
@[simp] theorem State.raise_call_response (e : CallError) :
    (s.raise (.call e)).response = [e.byte] := rfl
@[simp] theorem State.raise_fault_status (f : FaultCode) :
    (s.raise (.fault f)).status = .fault f := rfl
@[simp] theorem State.raise_fault_fault (f : FaultCode) : (s.raise (.fault f)).fault = true := rfl
@[simp] theorem State.raise_fault_faultCause (f : FaultCode) :
    (s.raise (.fault f)).faultCause = if s.fault then s.faultCause else some f := rfl
@[simp] theorem State.raise_fault_response (f : FaultCode) :
    (s.raise (.fault f)).response = [f.byte] := rfl

/-! `State.setReg` -/

@[simp] theorem State.setReg_freq (r : Nat) (v : BitSeq) : (s.setReg r v).freq = s.freq := by
  unfold State.setReg; split_ifs <;> rfl
@[simp] theorem State.setReg_sort (r : Nat) (v : BitSeq) : (s.setReg r v).sort = s.sort := by
  unfold State.setReg; split_ifs <;> rfl
@[simp] theorem State.setReg_seq (r : Nat) (v : BitSeq) : (s.setReg r v).seq = s.seq := by
  unfold State.setReg; split_ifs <;> rfl
@[simp] theorem State.setReg_arena (r : Nat) (v : BitSeq) : (s.setReg r v).arena = s.arena := by
  unfold State.setReg; split_ifs <;> rfl
@[simp] theorem State.setReg_codeValid (r : Nat) (v : BitSeq) : (s.setReg r v).codeValid = s.codeValid := by
  unfold State.setReg; split_ifs <;> rfl
@[simp] theorem State.setReg_taN (r : Nat) (v : BitSeq) : (s.setReg r v).taN = s.taN := by
  unfold State.setReg; split_ifs <;> rfl
@[simp] theorem State.setReg_taSym (r : Nat) (v : BitSeq) : (s.setReg r v).taSym = s.taSym := by
  unfold State.setReg; split_ifs <;> rfl
@[simp] theorem State.setReg_taLen (r : Nat) (v : BitSeq) : (s.setReg r v).taLen = s.taLen := by
  unfold State.setReg; split_ifs <;> rfl
@[simp] theorem State.setReg_inBuf (r : Nat) (v : BitSeq) : (s.setReg r v).inBuf = s.inBuf := by
  unfold State.setReg; split_ifs <;> rfl
@[simp] theorem State.setReg_outBuf (r : Nat) (v : BitSeq) : (s.setReg r v).outBuf = s.outBuf := by
  unfold State.setReg; split_ifs <;> rfl
@[simp] theorem State.setReg_blob (r : Nat) (v : BitSeq) : (s.setReg r v).blob = s.blob := by
  unfold State.setReg; split_ifs <;> rfl
@[simp] theorem State.setReg_status (r : Nat) (v : BitSeq) : (s.setReg r v).status = s.status := by
  unfold State.setReg; split_ifs <;> rfl
@[simp] theorem State.setReg_fault (r : Nat) (v : BitSeq) : (s.setReg r v).fault = s.fault := by
  unfold State.setReg; split_ifs <;> rfl
@[simp] theorem State.setReg_faultCause (r : Nat) (v : BitSeq) : (s.setReg r v).faultCause = s.faultCause := by
  unfold State.setReg; split_ifs <;> rfl
@[simp] theorem State.setReg_cur (r : Nat) (v : BitSeq) : (s.setReg r v).cur = s.cur := by
  unfold State.setReg; split_ifs <;> rfl
@[simp] theorem State.setReg_caps (r : Nat) (v : BitSeq) : (s.setReg r v).caps = s.caps := by
  unfold State.setReg; split_ifs <;> rfl
@[simp] theorem State.setReg_pending (r : Nat) (v : BitSeq) : (s.setReg r v).pending = s.pending := by
  unfold State.setReg; split_ifs <;> rfl
@[simp] theorem State.setReg_response (r : Nat) (v : BitSeq) : (s.setReg r v).response = s.response := by
  unfold State.setReg; split_ifs <;> rfl
@[simp] theorem State.setReg_draws (r : Nat) (v : BitSeq) : (s.setReg r v).draws = s.draws := by
  unfold State.setReg; split_ifs <;> rfl

end Updates

section Registers

variable (s : State)

/-- A register reads what was written to it (R25, R27). -/
@[simp] theorem State.reg_setReg_same (r : Nat) (v : BitSeq) (h : r < 263) :
    (s.setReg r v).reg r = v := by
  unfold State.setReg State.reg
  by_cases h0 : r < 256
  · simp [h0]
  · by_cases h1 : r = 256
    · simp [h1]
    · by_cases h2 : r = 257
      · simp [h2]
      · by_cases h3 : r = 258
        · simp [h3]
        · have h4 : r - 259 < 4 := by omega
          simp [h0, h1, h2, h3, h4]

/-- Writing one register changes no other (R27). -/
theorem State.reg_setReg_ne (r q : Nat) (v : BitSeq) (hr : r < 263) (h : q ≠ r) :
    (s.setReg r v).reg q = s.reg q := by
  unfold State.setReg State.reg
  by_cases h0 : r < 256
  · by_cases q0 : q < 256
    · simp only [h0, q0, dif_pos]; exact Vector.getElem_set_ne _ _ (Ne.symm h)
    · simp only [h0, q0, dif_pos, dif_neg, not_false_eq_true]
  · by_cases h1 : r = 256
    · subst h1; simp [h]
    · by_cases h2 : r = 257
      · subst h2; simp [h]
      · by_cases h3 : r = 258
        · subst h3; simp [h]
        · have h4 : r - 259 < 4 := by omega
          simp only [h0, h1, h2, h3, h4, dif_pos, dif_neg, if_neg, not_false_eq_true]
          split_ifs <;> first | exact Vector.getElem_set_ne _ _ (by omega) | rfl

/-- Writing a register leaves every piece of state but the registers as it was. -/
theorem State.setReg_frame (r : Nat) (v : BitSeq) :
    s.setReg r v =
      { s with
        code := (s.setReg r v).code
        path := (s.setReg r v).path
        codes := (s.setReg r v).codes
        data := (s.setReg r v).data
        tmp := (s.setReg r v).tmp } := by
  unfold State.setReg; split_ifs <;> rfl

/-- A code table entry reads what was written to it (R37). -/
@[simp] theorem State.codeOf_setCode_same (y : Byte) (v : BitSeq) : (s.setCode y v).codeOf y = v := by
  simp [State.codeOf, State.setCode]

/-- Writing one entry of the code table changes no other (R37). -/
theorem State.codeOf_setCode_ne (y z : Byte) (v : BitSeq) (h : z ≠ y) :
    (s.setCode y v).codeOf z = s.codeOf z := by
  have : ¬ y.toNat = z.toNat := fun e => h (BitVec.eq_of_toNat_eq e.symm)
  simp [State.codeOf, State.setCode, this]

/-- A written entry is a key (R37). -/
@[simp] theorem State.validOf_setCode_same (y : Byte) (v : BitSeq) :
    (s.setCode y v).validOf y = true := by
  simp [State.validOf, State.setCode]

/-- Writing one entry leaves the other keys as they were (R37). -/
theorem State.validOf_setCode_ne (y z : Byte) (v : BitSeq) (h : z ≠ y) :
    (s.setCode y v).validOf z = s.validOf z := by
  have : ¬ y.toNat = z.toNat := fun e => h (BitVec.eq_of_toNat_eq e.symm)
  simp [State.validOf, State.setCode, this]

/-- A cleared table has no key. -/
@[simp] theorem State.validOf_clearTable (y : Byte) : s.clearTable.validOf y = false := by
  simp [State.validOf, State.clearTable]

/-- A cleared table holds empty codes. -/
@[simp] theorem State.codeOf_clearTable (y : Byte) : s.clearTable.codeOf y = .empty := by
  simp [State.codeOf, State.clearTable]

end Registers

end Sys2Proof.Machine
end

