-- ==== Sys2Proof/Laws/Ops.lean ====
section
/-! SUPPORT. What each shared operation can do, said once: the prologue and epilogue, the asserts, the
checked pushes, the reads, the buffers. -/

namespace Sys2Proof

/-- Every buffer's cells are in canonical form, whatever was done to it (R60, log 14). -/
theorem Memory.wf_bufferCells (b : List Byte) : Memory.wf (bufferCells b) = true := by
  have : (bufferCells b).map Prod.fst = List.range b.length := by
    simp only [bufferCells, List.map_map]
    apply List.ext_getElem <;> simp
  rw [Memory.wf, this]
  simp [bufferCells]

/-- Reading a byte of a buffer that has been appended to, below its old length (R62). -/
theorem bufferAt_memAppend_old (b l : List Byte) (a : Nat) (h : a < b.length) :
    bufferAt (memAppend b l) a = bufferAt b a := by
  simp [bufferAt, memAppend, List.getElem?_append_left h]

/-- Reading an appended byte (R62). -/
theorem bufferAt_memAppend_new (b l : List Byte) (a : Nat) :
    bufferAt (memAppend b l) (b.length + a) = bufferAt l a := by
  simp [bufferAt, memAppend, List.getElem?_append_right]

/-- A capacity that allows a number allows every smaller one. -/
theorem capAllows_mono {cap : Option Nat} {m n : Nat} (h : m ≤ n) (hn : capAllows cap n = true) :
    capAllows cap m = true := by
  cases cap with
  | none => rfl
  | some c => simp [capAllows] at hn ⊢; omega

/-- What a capacity leaves of a list is allowed. -/
theorem capAllows_capTake {α : Type} (cap : Option Nat) (l : List α) :
    capAllows cap (capTake cap l).length = true := by
  cases cap <;> simp [capAllows, capTake]

namespace Machine

@[simp] theorem ensure_eq_ok {c : Bool} {r : Raise} {u : Unit} : ensure c r = .ok u ↔ c = true := by
  cases c <;> simp [ensure]

@[simp] theorem ensure_eq_error {c : Bool} {r : Raise} {h : Halt} :
    ensure c r = .error h ↔ c = false ∧ h = .raise r := by
  cases c <;> simp [ensure, eq_comm]

/-- A value bound in the pseudocode was answered by its first part. -/
theorem res_bind_ok {α β : Type} {x : Res α} {f : α → Res β} {b : β} :
    x >>= f = .ok b ↔ ∃ a, x = .ok a ∧ f a = .ok b := by
  cases x <;> simp [bind, Except.bind]

/-- How a bound computation ends early: in its first part or in its second. -/
theorem res_bind_error {α β : Type} {x : Res α} {f : α → Res β} {h : Halt} :
    x >>= f = .error h ↔ x = .error h ∨ ∃ a, x = .ok a ∧ f a = .error h := by
  cases x <;> simp [bind, Except.bind]

theorem pushBitCap_eq_ok {caps : Capacities} {v w : BitSeq} {b : Bool} :
    pushBitCap caps v b = .ok w ↔ capAllows caps.bsCap (v.size + 1) = true ∧ v.pushBit b = w := by
  unfold pushBitCap; split_ifs with h <;> simp [h]

theorem pushByteCap_eq_ok {caps : Capacities} {v w : BitSeq} {y : Byte} {n : Nat} :
    pushByteCap caps v y n = .ok w ↔
      capAllows caps.bsCap (v.size + n) = true ∧ v.pushByte y n = w := by
  unfold pushByteCap; split_ifs with h <;> simp [h]

theorem pushSeqCap_eq_ok {caps : Capacities} {v o w : BitSeq} :
    pushSeqCap caps v o = .ok w ↔
      capAllows caps.bsCap (v.size + o.size) = true ∧ v.pushSeq o = w := by
  unfold pushSeqCap; split_ifs with h <;> simp [h]

theorem readBytes_eq_ok {blob l : List Byte} {cur k c : Nat} :
    readBytes blob cur k = .ok (l, c) ↔
      cur + k ≤ blob.length ∧ memRead blob cur k = l ∧ cur + k = c := by
  unfold readBytes; split_ifs with h <;> simp [h]

theorem readBytes_eq_error {blob : List Byte} {cur k : Nat} {h : Halt} :
    readBytes blob cur k = .error h ↔
      blob.length < cur + k ∧ h = .raise (.call .truncated) := by
  unfold readBytes
  split_ifs with hk
  · simp; omega
  · simp [eq_comm]; intro _; omega

section Command

variable {i : Instr} {body : State → Res (State × List Byte)} {u : State → State} {s t : State}

/-- A latched core refuses (R226). -/
theorem runCommand_refused (h : s.fault = true) : runCommand i body u s = .next s.refuse := by
  simp [runCommand, h]

/-- An illegal operand is F_ILLEGAL_CMD (R86, R227). -/
theorem runCommand_illegal {e : Reject} (h : s.fault = false) (hi : i.problem = some e) :
    runCommand i body u s = .next (s.raise (.fault .illegalCmd)) := by
  simp [runCommand, h, hi]

/-- A rule that reaches its end gets the epilogue (R227). -/
theorem runCommand_ok {l : List Byte} (h : s.fault = false) (hi : i.WellFormed)
    (hb : body s = .ok (t, l)) : runCommand i body u s = .next (t.finish l) := by
  simp [runCommand, h, show i.problem = none from hi, hb]

/-- A raise (R224, R225) over what R229 leaves of the state. -/
theorem runCommand_raise {r : Raise} (h : s.fault = false) (hi : i.WellFormed)
    (hb : body s = .error (.raise r)) : runCommand i body u s = .next ((u s).raise r) := by
  simp [runCommand, h, show i.problem = none from hi, hb]

/-- Everything a command that answers a next state can have done (R227). -/
theorem runCommand_cases (h : runCommand i body u s = .next t) :
    (s.fault = true ∧ t = s.refuse) ∨
      (s.fault = false ∧ i.problem ≠ none ∧ t = s.raise (.fault .illegalCmd)) ∨
      (s.fault = false ∧ i.problem = none ∧ ∃ t' l, body s = .ok (t', l) ∧ t = t'.finish l) ∨
      (s.fault = false ∧ i.problem = none ∧
        ∃ r, body s = .error (.raise r) ∧ t = (u s).raise r) := by
  unfold runCommand at h
  split_ifs at h with hf
  · exact .inl ⟨hf, by simpa using h.symm⟩
  · have hf' : s.fault = false := by simpa using hf
    cases hp : i.problem with
    | some e => exact .inr (.inl ⟨hf', by simp, by simpa [hp] using h.symm⟩)
    | none =>
      simp only [hp] at h
      cases hb : body s with
      | ok x =>
        obtain ⟨t', l⟩ := x
        exact .inr (.inr (.inl ⟨hf', rfl, t', l, rfl, by simpa [hb] using h.symm⟩))
      | error e =>
        cases e with
        | raise r => exact .inr (.inr (.inr ⟨hf', rfl, r, rfl, by simpa [hb] using h.symm⟩))
        | stuck f => simp [hb] at h

end Command

section Stage

variable {i : Instr} {stage : State → Res State} {u : State → State} {s t : State}

/-- A stage that reaches its end gets the epilogue, without result bytes (R84, R227). -/
theorem runStage_ok (h : s.fault = false) (hi : i.WellFormed) (hs : stage s = .ok t) :
    runStage i stage u s = .next (t.finish []) :=
  runCommand_ok h hi (by simp [hs, Except.map])

/-- A stage that raises (R224, R225, R229). -/
theorem runStage_raise {r : Raise} (h : s.fault = false) (hi : i.WellFormed)
    (hs : stage s = .error (.raise r)) : runStage i stage u s = .next ((u s).raise r) :=
  runCommand_raise h hi (by simp [hs, Except.map])

/-- Everything a stage command that answers a next state can have done (R227). -/
theorem runStage_cases (h : runStage i stage u s = .next t) :
    (s.fault = true ∧ t = s.refuse) ∨
      (s.fault = false ∧ i.problem ≠ none ∧ t = s.raise (.fault .illegalCmd)) ∨
      (s.fault = false ∧ i.problem = none ∧ ∃ t', stage s = .ok t' ∧ t = t'.finish []) ∨
      (s.fault = false ∧ i.problem = none ∧
        ∃ r, stage s = .error (.raise r) ∧ t = (u s).raise r) := by
  obtain h | h | ⟨hf, hp, t', l, hb, rfl⟩ | ⟨hf, hp, r, hb, rfl⟩ := runCommand_cases h
  · exact .inl h
  · exact .inr (.inl h)
  · cases hs : stage s with
    | ok x =>
      simp [hs, Except.map] at hb
      exact .inr (.inr (.inl ⟨hf, hp, x, rfl, by rw [← hb.1, ← hb.2]⟩))
    | error e => simp [hs, Except.map] at hb
  · cases hs : stage s with
    | ok x => simp [hs, Except.map] at hb
    | error e => exact .inr (.inr (.inr ⟨hf, hp, r, by simpa [hs, Except.map] using hb, rfl⟩))

end Stage

/-! ### The alphabet -/

/-- CODE_VALID with its indexes, symbol by symbol. -/
theorem State.codeValid_zipIdx (s : State) :
    s.codeValid.toList.zipIdx = (List.range 256).map fun n => (s.validOf (BitVec.ofNat 8 n), n) := by
  apply List.ext_getElem
  · simp
  · intro n h _
    have hn : n < 256 := by simpa using h
    have : n % 256 = n := Nat.mod_eq_of_lt hn
    simp [State.validOf, this]

/-- The alphabet, as a filter over the symbols. -/
theorem State.alphabet_eq_filter (s : State) :
    s.alphabet = ((List.range 256).map (BitVec.ofNat 8)).filter s.validOf := by
  simp only [State.alphabet, State.codeValid_zipIdx, List.filter_map, List.map_map]
  rfl

@[simp] theorem State.mem_alphabet (s : State) (y : Byte) : y ∈ s.alphabet ↔ s.validOf y = true := by
  simp only [State.alphabet_eq_filter, List.mem_filter, and_iff_right_iff_imp]
  intro _
  exact List.mem_map.2 ⟨y.toNat, List.mem_range.2 y.isLt, by simp⟩

theorem State.alphabet_sorted (s : State) : s.alphabet.Pairwise (· < ·) := by
  rw [State.alphabet_eq_filter]
  refine List.Pairwise.filter _ ?_
  rw [List.pairwise_map]
  refine List.Pairwise.imp_of_mem ?_ List.pairwise_lt_range
  intro a b ha hb h
  simp only [List.mem_range] at ha hb
  simp only [BitVec.lt_def, BitVec.toNat_ofNat]
  omega

theorem State.alphabet_nodup (s : State) : s.alphabet.Nodup :=
  (State.alphabet_sorted s).imp fun h => BitVec.ne_of_lt h

theorem State.alphabet_length_le (s : State) : s.alphabet.length ≤ 256 := by
  rw [State.alphabet_eq_filter]
  exact (List.length_filter_le _ _).trans (by simp)

end Machine

end Sys2Proof
end

