-- ==== Sys2Proof/Laws/PerInstr.lean ====
section
/-! SUPPORT. Facts of every instruction as syntax, one lemma per constructor. -/

namespace Sys2Proof.Laws

/-- The length in bytes that opcode_table.json gives the instruction's row. -/
def rowLength : Instr → Nat
  | .bsClear _ => 3
  | .bsCopy _ _ => 5
  | .bsPushBit _ _ => 4
  | .bsPushByte _ _ _ => 5
  | .bsPushSeq _ _ => 5
  | .bsPop _ => 3
  | .bsAt _ _ => 11
  | .bsSize _ => 3
  | .bsIter _ => 3
  | .freqCount => 1
  | .treeBuild => 1
  | .tableDerive => 1
  | .dataEncode => 1
  | .tableLoad => 1
  | .treeInsert _ _ => 4
  | .treeFromTable => 1
  | .treeDecode => 1
  | .treeInit => 1
  | .hefSerialize => 1
  | .hefDeserialize => 1
  | .encodeInput => 1
  | .decodeBlob => 1
  | .csrRead _ => 2
  | .varintTag0 _ => 2
  | .varintTag1 _ => 3
  | .varintTag2 _ => 5
  | .varintTag3 _ => 9

/-- The encoding of an instruction has its row's length and begins with its opcode (R81, R83, R88). -/
def EncodingShape.Statement (i : Instr) : Prop :=
  (encode i).length = rowLength i ∧ (encode i).head? = some i.opcode

theorem EncodingShape.bsClear (r : BitVec 16) : EncodingShape.Statement (.bsClear r) := ⟨rfl, rfl⟩
theorem EncodingShape.bsCopy (r : BitVec 16) (s : BitVec 16) : EncodingShape.Statement (.bsCopy r s) := ⟨rfl, rfl⟩
theorem EncodingShape.bsPushBit (r : BitVec 16) (bit : Byte) : EncodingShape.Statement (.bsPushBit r bit) := ⟨rfl, rfl⟩
theorem EncodingShape.bsPushByte (r : BitVec 16) (byte : Byte) (nbits : Byte) : EncodingShape.Statement (.bsPushByte r byte nbits) := ⟨rfl, rfl⟩
theorem EncodingShape.bsPushSeq (r : BitVec 16) (s : BitVec 16) : EncodingShape.Statement (.bsPushSeq r s) := ⟨rfl, rfl⟩
theorem EncodingShape.bsPop (r : BitVec 16) : EncodingShape.Statement (.bsPop r) := ⟨rfl, rfl⟩
theorem EncodingShape.bsAt (r : BitVec 16) (index : BitVec 64) : EncodingShape.Statement (.bsAt r index) := ⟨rfl, rfl⟩
theorem EncodingShape.bsSize (r : BitVec 16) : EncodingShape.Statement (.bsSize r) := ⟨rfl, rfl⟩
theorem EncodingShape.bsIter (r : BitVec 16) : EncodingShape.Statement (.bsIter r) := ⟨rfl, rfl⟩
theorem EncodingShape.freqCount : EncodingShape.Statement .freqCount := ⟨rfl, rfl⟩
theorem EncodingShape.treeBuild : EncodingShape.Statement .treeBuild := ⟨rfl, rfl⟩
theorem EncodingShape.tableDerive : EncodingShape.Statement .tableDerive := ⟨rfl, rfl⟩
theorem EncodingShape.dataEncode : EncodingShape.Statement .dataEncode := ⟨rfl, rfl⟩
theorem EncodingShape.tableLoad : EncodingShape.Statement .tableLoad := ⟨rfl, rfl⟩
theorem EncodingShape.treeInsert (sym : Byte) (r : BitVec 16) : EncodingShape.Statement (.treeInsert sym r) := ⟨rfl, rfl⟩
theorem EncodingShape.treeFromTable : EncodingShape.Statement .treeFromTable := ⟨rfl, rfl⟩
theorem EncodingShape.treeDecode : EncodingShape.Statement .treeDecode := ⟨rfl, rfl⟩
theorem EncodingShape.treeInit : EncodingShape.Statement .treeInit := ⟨rfl, rfl⟩
theorem EncodingShape.hefSerialize : EncodingShape.Statement .hefSerialize := ⟨rfl, rfl⟩
theorem EncodingShape.hefDeserialize : EncodingShape.Statement .hefDeserialize := ⟨rfl, rfl⟩
theorem EncodingShape.encodeInput : EncodingShape.Statement .encodeInput := ⟨rfl, rfl⟩
theorem EncodingShape.decodeBlob : EncodingShape.Statement .decodeBlob := ⟨rfl, rfl⟩
theorem EncodingShape.csrRead (n : Byte) : EncodingShape.Statement (.csrRead n) := ⟨rfl, rfl⟩
theorem EncodingShape.varintTag0 (v : BitVec 8) : EncodingShape.Statement (.varintTag0 v) := ⟨rfl, rfl⟩
theorem EncodingShape.varintTag1 (v : BitVec 16) : EncodingShape.Statement (.varintTag1 v) := ⟨rfl, rfl⟩
theorem EncodingShape.varintTag2 (v : BitVec 32) : EncodingShape.Statement (.varintTag2 v) := ⟨rfl, rfl⟩
theorem EncodingShape.varintTag3 (v : BitVec 64) : EncodingShape.Statement (.varintTag3 v) := ⟨rfl, rfl⟩

end Sys2Proof.Laws
end

