-- ==== Sys2Proof/Laws/Runs.lean ====
section
/-! SUPPORT. The exchanges of a run, one step at a time (spec/70_reset_and_hazards.md R255). -/

namespace Sys2Proof.Machine

/-- With nothing waiting nothing is exchanged. -/
@[simp] theorem State.exchanges_of_empty (k : Nat) {s : State} (h : s.pending = []) :
    s.exchanges k = [] := by
  cases k <;> simp [State.exchanges, h]

/-- One step exchanges the oldest interaction for what it returned. -/
theorem State.exchanges_step {k : Nat} {s t : State} {q : Request} {rest : List Request}
    (h : s.pending = q :: rest) (hs : step s = .next t) :
    s.exchanges (k + 1) = (q, t.response) :: t.exchanges k := by
  simp [State.exchanges, h, hs]

/-- No more exchanges than steps. -/
theorem State.exchanges_length_le (k : Nat) (s : State) : (s.exchanges k).length ≤ k := by
  induction k generalizing s with
  | zero => simp [State.exchanges]
  | succ k ih =>
    simp only [State.exchanges]
    split
    · simp
    · split
      · simpa using ih _
      · simp
      · simp

/-- A run that ends on a command is over there, whatever loads, reads and resets follow (R255). -/
theorem runLength_of_last {before after : List Request} {q : Request} (hq : q.isCommand = true)
    (ha : ∀ x ∈ after, x.isCommand = false) :
    runLength (before ++ q :: after) = before.length + 1 := by
  have : (before ++ q :: after).reverse.dropWhile (fun x => !x.isCommand) = q :: before.reverse := by
    rw [List.reverse_append, List.reverse_cons, List.append_assoc,
      List.dropWhile_append_of_pos (by simpa using ha)]
    simp [hq]
  rw [runLength, this]
  simp

/-- The empty run is over where it starts, and went wrong exactly when FAULT = 1 there. -/
theorem State.wentWrong_of_empty {s : State} (h : s.pending = []) (cares : Nat → Bool) :
    s.WentWrong cares ↔ s.fault = true := by
  constructor
  · rintro (⟨t, ht, hf⟩ | ⟨i, x, hx, -⟩)
    · rw [State.RunEnds, h] at ht
      cases ht
      exact hf
    · simp [State.exchanges_of_empty _ h] at hx
  · intro hf
    refine .inl ⟨s, ?_, hf⟩
    rw [State.RunEnds, h]
    rfl

end Sys2Proof.Machine
end

