-- ==== Sys2Proof/Laws/Stages.lean ====
section
/-! SUPPORT. For each stage one lemma that says what of the state it can change when it answers (the
"writes" sentence of each operation's rule in spec/41_codetree.md and spec/42_hef_codec.md). -/

namespace Sys2Proof.Machine

variable {s t : State}

theorem freqCountStage_frame (h : freqCountStage s = .ok t) : t = { s with freq := t.freq } := by
  simp only [freqCountStage, Except.ok.injEq] at h
  subst h; rfl

theorem treeBuildStage_frame (h : treeBuildStage s = .ok t) :
    t = { s with arena := t.arena, sort := t.sort, seq := t.seq } := by
  simp only [treeBuildStage] at h
  split at h <;> (simp only [Except.ok.injEq] at h; subst h; rfl)

/-- The pieces the walk of R150 can change: the code table and PATH. -/
abbrev TableFrame (s t : State) : Prop :=
  t = { s with code := t.code, codeValid := t.codeValid, path := t.path }

theorem visitChild_frame {walk : Nat → State → Res State} {b : Bool} {c : Option Nat}
    (hw : ∀ i s t, walk i s = .ok t → TableFrame s t) (h : visitChild walk b c s = .ok t) :
    TableFrame s t := by
  cases c with
  | none => simp only [visitChild, Except.ok.injEq] at h; subst h; rfl
  | some c =>
    obtain ⟨p, -, h⟩ := res_bind_ok.1 h
    obtain ⟨w, hw', h⟩ := res_bind_ok.1 h
    simp only [Except.ok.injEq] at h
    subst h
    rw [TableFrame, hw _ _ _ hw']

theorem deriveWalk_frame (nodes : List Node) (fuel : Nat) :
    ∀ (i : Nat) (s t : State), deriveWalk nodes fuel i s = .ok t → TableFrame s t := by
  induction fuel with
  | zero => intro i s t h; simp [deriveWalk] at h
  | succ fuel ih =>
    intro i s t h
    unfold deriveWalk at h
    split at h
    · simp at h
    · simp only [Except.ok.injEq] at h; subst h; rfl
    · obtain ⟨m, hm, h⟩ := res_bind_ok.1 h
      rw [TableFrame, visitChild_frame ih h, visitChild_frame ih hm]

theorem tableDeriveStage_frame (h : tableDeriveStage s = .ok t) :
    t = { s with code := t.code, codeValid := t.codeValid, path := t.path } := by
  simp only [tableDeriveStage] at h
  split at h
  · simp only [Except.ok.injEq] at h; subst h; rfl
  · rw [deriveWalk_frame _ _ _ _ _ h]; rfl

theorem treeInitStage_frame (h : treeInitStage s = .ok t) : t = { s with arena := bareRoot } := by
  simp only [treeInitStage, Except.ok.injEq] at h
  exact h.symm

theorem treeInsertStage_frame {sym : Byte} {code : BitSeq} (h : treeInsertStage sym code s = .ok t) :
    t = { s with arena := t.arena } := by
  obtain ⟨a, -, h⟩ := res_bind_ok.1 h
  simp only [Except.ok.injEq] at h
  subst h; rfl

theorem insertAll_frame (c : Byte → BitSeq) (l : List Byte) :
    ∀ s t : State, l.foldlM (fun t sym => treeInsertStage sym (c sym) t) s = .ok t →
      t = { s with arena := t.arena } := by
  induction l with
  | nil =>
    intro s t h
    have : s = t := by simpa [pure, Except.pure] using h
    subst this; rfl
  | cons y rest ih =>
    intro s t h
    rw [List.foldlM_cons] at h
    obtain ⟨m, hm, h⟩ := res_bind_ok.1 h
    rw [ih _ _ h, treeInsertStage_frame hm]

theorem treeFromTableStage_frame (h : treeFromTableStage s = .ok t) :
    t = { s with arena := t.arena } := by
  obtain ⟨m, hm, h⟩ := res_bind_ok.1 h
  rw [insertAll_frame _ _ _ _ h, treeInitStage_frame hm]

theorem treeDecodeStage_frame (h : treeDecodeStage s = .ok t) :
    ∃ out, decodeBits s.arena s.data.bits = .ok out ∧ t = { s with outBuf := s.outBuf ++ out } := by
  obtain ⟨out, ho, h⟩ := res_bind_ok.1 h
  obtain ⟨-, -, h⟩ := res_bind_ok.1 h
  simp only [Except.ok.injEq] at h
  exact ⟨out, ho, h.symm⟩

theorem dataEncodeStage_frame (h : dataEncodeStage s = .ok t) : t = { s with data := t.data } := by
  obtain ⟨d, -, h⟩ := res_bind_ok.1 h
  simp only [Except.ok.injEq] at h
  subst h; rfl

theorem hefSerializeStage_frame (h : hefSerializeStage s = .ok t) :
    t = { s with
      taN := t.taN, taSym := t.taSym, taLen := t.taLen, codes := t.codes, blob := t.blob } := by
  obtain ⟨-, -, h⟩ := res_bind_ok.1 h
  obtain ⟨c, -, h⟩ := res_bind_ok.1 h
  obtain ⟨b, -, h⟩ := res_bind_ok.1 h
  obtain ⟨-, -, h⟩ := res_bind_ok.1 h
  simp only [Except.ok.injEq] at h
  subst h; rfl

theorem hefDeserializeStage_frame (h : hefDeserializeStage s = .ok t) :
    t = { s with
      cur := t.cur, taN := t.taN, taSym := t.taSym, taLen := t.taLen, codes := t.codes,
      data := t.data } := by
  obtain ⟨_, -, h⟩ := res_bind_ok.1 h
  obtain ⟨-, -, h⟩ := res_bind_ok.1 h
  obtain ⟨_, -, h⟩ := res_bind_ok.1 h
  obtain ⟨_, -, h⟩ := res_bind_ok.1 h
  obtain ⟨-, -, h⟩ := res_bind_ok.1 h
  obtain ⟨_, -, h⟩ := res_bind_ok.1 h
  obtain ⟨_, -, h⟩ := res_bind_ok.1 h
  obtain ⟨_, -, h⟩ := res_bind_ok.1 h
  obtain ⟨-, -, h⟩ := res_bind_ok.1 h
  obtain ⟨-, -, h⟩ := res_bind_ok.1 h
  obtain ⟨_, -, h⟩ := res_bind_ok.1 h
  simp only [Except.ok.injEq] at h
  subst h; rfl

/-- The reader never passes the end of BLOB: the bound of R44, where CUR is written (R172, R185). -/
theorem hefDeserializeStage_cur_le (h : hefDeserializeStage s = .ok t) : t.cur ≤ t.blob.length := by
  obtain ⟨_, -, h⟩ := res_bind_ok.1 h
  obtain ⟨-, -, h⟩ := res_bind_ok.1 h
  obtain ⟨_, -, h⟩ := res_bind_ok.1 h
  obtain ⟨_, -, h⟩ := res_bind_ok.1 h
  obtain ⟨-, -, h⟩ := res_bind_ok.1 h
  obtain ⟨_, -, h⟩ := res_bind_ok.1 h
  obtain ⟨_, -, h⟩ := res_bind_ok.1 h
  obtain ⟨_, -, h⟩ := res_bind_ok.1 h
  obtain ⟨-, -, h⟩ := res_bind_ok.1 h
  obtain ⟨-, -, h⟩ := res_bind_ok.1 h
  obtain ⟨⟨bits, c⟩, hb, h⟩ := res_bind_ok.1 h
  obtain ⟨⟨l, c'⟩, hl, hb⟩ := res_bind_ok.1 hb
  obtain ⟨hk, -, hc⟩ := readBytes_eq_ok.1 hl
  simp only [Except.ok.injEq, Prod.mk.injEq] at hb h
  subst h
  exact hb.2 ▸ hc ▸ hk

theorem loadEntries_frame (codes : BitSeq) (l : List (Byte × Byte)) :
    ∀ (off : Nat) (s t : State), loadEntries codes off l s = .ok t →
      t = { s with code := t.code, codeValid := t.codeValid } := by
  induction l with
  | nil => intro off s t h; simp only [loadEntries, Except.ok.injEq] at h; subst h; rfl
  | cons e rest ih =>
    intro off s t h
    obtain ⟨-, -, h⟩ := res_bind_ok.1 h
    obtain ⟨-, -, h⟩ := res_bind_ok.1 h
    rw [ih _ _ _ h]; rfl

theorem tableLoadStage_frame (h : tableLoadStage s = .ok t) :
    t = { s with code := t.code, codeValid := t.codeValid } := by
  rw [loadEntries_frame _ _ _ _ _ h]; rfl

/-- What ENCODE writes (R190). -/
theorem encodeStage_frame (h : encodeStage s = .ok t) :
    t = { s with
      freq := t.freq, sort := t.sort, seq := t.seq, arena := t.arena, code := t.code,
      codeValid := t.codeValid, path := t.path, data := t.data, taN := t.taN, taSym := t.taSym,
      taLen := t.taLen, codes := t.codes, blob := t.blob } := by
  obtain ⟨a, ha, h⟩ := res_bind_ok.1 h
  obtain ⟨b, hb, h⟩ := res_bind_ok.1 h
  obtain ⟨c, hc, h⟩ := res_bind_ok.1 h
  obtain ⟨d, hd, h⟩ := res_bind_ok.1 h
  rw [hefSerializeStage_frame h, dataEncodeStage_frame hd, tableDeriveStage_frame hc,
    treeBuildStage_frame hb, freqCountStage_frame ha]

/-- What DECODE writes (R192). -/
theorem decodeStage_frame (h : decodeStage s = .ok t) :
    t = { s with
      cur := t.cur, taN := t.taN, taSym := t.taSym, taLen := t.taLen, codes := t.codes,
      data := t.data, code := t.code, codeValid := t.codeValid, arena := t.arena,
      outBuf := t.outBuf } := by
  obtain ⟨a, ha, h⟩ := res_bind_ok.1 h
  obtain ⟨b, hb, h⟩ := res_bind_ok.1 h
  obtain ⟨c, hc, h⟩ := res_bind_ok.1 h
  obtain ⟨out, -, h⟩ := treeDecodeStage_frame h
  rw [h, treeFromTableStage_frame hc, tableLoadStage_frame hb, hefDeserializeStage_frame ha]

/-- DECODE leaves CUR where its HEF.DESERIALIZE stage does, within BLOB (R44, R192). -/
theorem decodeStage_cur_le (h : decodeStage s = .ok t) : t.cur ≤ t.blob.length := by
  obtain ⟨a, ha, h⟩ := res_bind_ok.1 h
  obtain ⟨b, hb, h⟩ := res_bind_ok.1 h
  obtain ⟨c, hc, h⟩ := res_bind_ok.1 h
  obtain ⟨out, -, h⟩ := treeDecodeStage_frame h
  have hcur : t.cur = a.cur := by rw [h, treeFromTableStage_frame hc, tableLoadStage_frame hb]
  have hblob : t.blob = a.blob := by rw [h, treeFromTableStage_frame hc, tableLoadStage_frame hb]
  exact hcur ▸ hblob ▸ hefDeserializeStage_cur_le ha

/-- What the reader transaction writes and returns (R172, R174). -/
theorem passVarint_cases {k v : Nat} {l : List Byte} (h : passVarint k v s = .ok (t, l)) :
    s.cur + (1 + k) ≤ s.blob.length ∧ t = { s with cur := s.cur + (1 + k) } ∧ l = read64 v := by
  obtain ⟨⟨m, c⟩, hm, h⟩ := res_bind_ok.1 h
  obtain ⟨hk, -, hc⟩ := readBytes_eq_ok.1 hm
  simp only [Except.ok.injEq, Prod.mk.injEq] at h
  exact ⟨hk, by rw [← h.1, ← hc], h.2.symm⟩

end Sys2Proof.Machine
end

