-- ==== Sys2Proof/Tests/Slice0.lean ====
section
/-! SUPPORT. The model's own tests: decodings written out from spec/30_encoding.md R81, R83 and R88,
ill-formed terms refused, one-step tests whose expected values are those of spec/95_test_vectors.md, and
the witnesses that the hypotheses of the obligations can be met. -/

open Sys2Proof Sys2Proof.Machine Sys2Proof.Claims

set_option Elab.async false

namespace Sys2Proof.Tests

/-! ### Decoding, every constructor -/

theorem test_decode_bs_first : decodeCommand [0x10, 0x03, 0x01] = .ok (.bsClear 259) ∧
    decodeCommand [0x11, 0x04, 0x01, 0x03, 0x01] = .ok (.bsCopy 260 259) ∧
    decodeCommand [0x12, 0x03, 0x01, 0x01] = .ok (.bsPushBit 259 1) ∧
    decodeCommand [0x13, 0x03, 0x01, 0xA7, 0x08] = .ok (.bsPushByte 259 0xA7 8) ∧
    decodeCommand [0x14, 0x03, 0x01, 0x04, 0x01] = .ok (.bsPushSeq 259 260) := by
  refine ⟨?_, ?_, ?_, ?_, ?_⟩ <;> rfl

theorem test_decode_bs_second : decodeCommand [0x15, 0x03, 0x01] = .ok (.bsPop 259) ∧
    decodeCommand [0x16, 0x03, 0x01, 0x09, 0, 0, 0, 0, 0, 0, 0x80] =
      .ok (.bsAt 259 0x8000000000000009) ∧
    decodeCommand [0x17, 0x06, 0x01] = .ok (.bsSize 262) ∧
    decodeCommand [0x18, 0xFF, 0x00] = .ok (.bsIter 255) := by
  refine ⟨?_, ?_, ?_, ?_⟩ <;> rfl

theorem test_decode_encode_stages : decodeCommand [0x20] = .ok .freqCount ∧
    decodeCommand [0x21] = .ok .treeBuild ∧ decodeCommand [0x22] = .ok .tableDerive ∧
    decodeCommand [0x23] = .ok .dataEncode := by
  refine ⟨?_, ?_, ?_, ?_⟩ <;> rfl

theorem test_decode_decode_stages : decodeCommand [0x30] = .ok .tableLoad ∧
    decodeCommand [0x31, 0x61, 0x03, 0x01] = .ok (.treeInsert 0x61 259) ∧
    decodeCommand [0x32] = .ok .treeFromTable ∧ decodeCommand [0x33] = .ok .treeDecode ∧
    decodeCommand [0x34] = .ok .treeInit := by
  refine ⟨?_, ?_, ?_, ?_, ?_⟩ <;> rfl

theorem test_decode_codec_and_system : decodeCommand [0x40] = .ok .hefSerialize ∧
    decodeCommand [0x41] = .ok .hefDeserialize ∧ decodeCommand [0x42] = .ok .encodeInput ∧
    decodeCommand [0x43] = .ok .decodeBlob ∧ decodeCommand [0x50, 0x12] = .ok (.csrRead 0x12) := by
  refine ⟨?_, ?_, ?_, ?_, ?_⟩ <;> rfl

theorem test_decode_varints : decodeVarint [0x00, 0xFF] = .ok (.varintTag0 255, []) ∧
    decodeVarint [0x01, 0x34, 0x12] = .ok (.varintTag1 0x1234, []) ∧
    decodeVarint [0x02, 0x00, 0x00, 0x01, 0x00, 0xAA] = .ok (.varintTag2 65536, [0xAA]) ∧
    decodeVarint [0x03, 0, 0, 0, 0, 1, 0, 0, 0] = .ok (.varintTag3 4294967296, []) := by
  refine ⟨?_, ?_, ?_, ?_⟩ <;> rfl

/-- The encodings bit by bit, most significant bit first: 0001 0000, then 259 = 1 0000 0011 low byte
first (R81, R83); 0101 0000, 0001 0010; tag 01 and 0x1234 low byte first (R88). -/
theorem test_decode_bitwise :
    decodeCommand [0b00010000, 0b00000011, 0b00000001] = .ok (.bsClear 259) ∧
    decodeCommand [0b00110001, 0b01100001, 0b00000011, 0b00000001] = .ok (.treeInsert 0x61 259) ∧
    decodeCommand [0b01000001] = .ok .hefDeserialize ∧
    decodeCommand [0b01010000, 0b00010010] = .ok (.csrRead 0x12) ∧
    decodeVarint [0b00000001, 0b00110100, 0b00010010] = .ok (.varintTag1 0x1234, []) := by
  refine ⟨?_, ?_, ?_, ?_, ?_⟩ <;> rfl

/-- Each rejection of R86, the vectors V-C6 to V-C11. -/
theorem test_decode_rejects : decodeCommand [] = .error .emptyPacket ∧
    decodeCommand [0x19] = .error .reservedOpcode ∧ decodeCommand [0x00] = .error .reservedOpcode ∧
    decodeCommand [0x10, 0x03] = .error .badLength ∧ decodeCommand [0x42, 0x00] = .error .badLength ∧
    decodeCommand [0x10, 0x07, 0x01] = .error .badRegister ∧
    decodeCommand [0x12, 0x03, 0x01, 0x02] = .error .badBit ∧
    decodeCommand [0x50, 0x0E] = .error .badCsr := by
  refine ⟨?_, ?_, ?_, ?_, ?_, ?_, ?_, ?_⟩ <;> rfl

/-- The order of R86: a packet with a bad register and a bad bit is a bad register. -/
theorem test_decode_rejects_in_order :
    decodeCommand [0x12, 0x07, 0x01, 0x02] = .error .badRegister := rfl

theorem test_varint_rejects : decodeVarint [0x04, 0x00] = .error .badTag ∧
    decodeVarint [0x07] = .error .badTag ∧ decodeVarint [0x02, 0, 0, 0] = .error .truncated ∧
    decodeVarint [] = .error .truncated := by
  refine ⟨?_, ?_, ?_, ?_⟩ <;> rfl

/-- A row's bits, numbered as the opcode table numbers them: `31 61 03 01` and `01 34 12`. -/
theorem test_table_word : decodeTableWord 32 0x01036131 = some (.treeInsert 0x61 259) ∧
    decodeTableWord 24 0x123401 = some (.varintTag1 0x1234) ∧ decodeTableWord 8 0x24 = none := by
  refine ⟨?_, ?_, ?_⟩ <;> rfl

/-! ### WellFormed refuses -/

theorem smoke_register : ¬ (Instr.bsClear 263).WellFormed ∧ ¬ (Instr.treeInsert 0x61 263).WellFormed ∧
    (Instr.bsClear 262).WellFormed := by decide

theorem smoke_second_register : ¬ (Instr.bsCopy 0 263).WellFormed ∧
    ¬ (Instr.bsPushSeq 0 0xFFFF).WellFormed := by decide

theorem smoke_bit : ¬ (Instr.bsPushBit 259 2).WellFormed ∧ (Instr.bsPushBit 259 1).WellFormed := by
  decide

theorem smoke_csr : ¬ (Instr.csrRead 0x0E).WellFormed ∧ ¬ (Instr.csrRead 0x14).WellFormed ∧
    (Instr.csrRead 0x13).WellFormed := by decide

/-- An illegal operand never decodes, whatever else its packet holds. -/
theorem smoke_refused_by_decoder : decodeCommand (encode (.bsClear 263)) = .error .badRegister ∧
    decodeCommand (encode (.bsPushBit 0 255)) = .error .badBit ∧
    decodeCommand (encode (.csrRead 0xFF)) = .error .badCsr := by
  refine ⟨?_, ?_, ?_⟩ <;> rfl

/-! ### One-step tests against spec/95_test_vectors.md -/

/-- The next state of an outcome. -/
def nextOf (o : Host.Outcome State Fault Refusal) : Option State :=
  match o with
  | .next t => some t
  | .fault _ => none
  | .refused _ => none

/-- What `f` shows of the state an instruction leaves. -/
def shows {α : Type} (i : Instr) (s : State) (f : State → α) : Option α := (nextOf (exec i s)).map f

/-- The reset state with TMP0 and TMP1. -/
def tmps (v w : BitSeq) : State := (State.reset.setReg 259 v).setReg 260 w

def ones61 : BitSeq := ⟨[0xFFFFFFFFFFFFFFF8], 61⟩
def ones64 : BitSeq := ⟨[0xFFFFFFFFFFFFFFFF], 64⟩
def b101 : BitSeq := ⟨[0xA000000000000000], 3⟩
def full69 : BitSeq := ⟨[0xFFFFFFFFFFFFFFFD, 0x3800000000000000], 5⟩

/-- V-B17. -/
theorem test_clear : shows (.bsClear 259) (tmps full69 b101) (fun t => (t.reg 259, t.reg 260)) =
    some (⟨[0], 0⟩, b101) := by decide +kernel

/-- V-B16. -/
theorem test_copy : shows (.bsCopy 260 259) (tmps b101 ones64) (fun t => (t.reg 259, t.reg 260)) =
    some (b101, b101) := by decide +kernel

/-- V-B5. -/
theorem test_push_bit_new_block : shows (.bsPushBit 259 1) (tmps ones64 .empty) (fun t => t.reg 259) =
    some ⟨[0xFFFFFFFFFFFFFFFF, 0x8000000000000000], 1⟩ := by decide +kernel

/-- V-B4. -/
theorem test_push_byte_split : shows (.bsPushByte 259 0xA7 8) (tmps ones61 .empty)
    (fun t => t.reg 259) = some full69 := by decide +kernel

/-- V-B18. -/
theorem test_push_byte_nine : shows (.bsPushByte 259 0xFF 9) (tmps b101 .empty)
    (fun t => (t.response, t.fault, t.reg 259)) = some ([0x12], true, b101) := by decide +kernel

/-- V-B8. -/
theorem test_push_seq_straddle : shows (.bsPushSeq 259 260)
    (tmps ⟨[0xC000000000000000], 3⟩ ⟨[0xFFFFFFFFFFFFFFFF, 0x4000000000000000], 2⟩)
    (fun t => t.reg 259) = some ⟨[0xDFFFFFFFFFFFFFFF, 0xE800000000000000], 5⟩ := by decide +kernel

/-- V-B12. -/
theorem test_push_seq_self : shows (.bsPushSeq 259 259) (tmps b101 .empty) (fun t => t.reg 259) =
    some ⟨[0xB400000000000000], 6⟩ := by decide +kernel

/-- V-B6. -/
theorem test_pop_drops_block : shows (.bsPop 259)
    (tmps ⟨[0xFFFFFFFFFFFFFFFF, 0x8000000000000000], 1⟩ .empty) (fun t => t.reg 259) =
    some ones64 := by decide +kernel

/-- V-B6b. -/
theorem test_pop_empty : shows (.bsPop 261) (tmps b101 .empty)
    (fun t => (t.response, t.fault, t.faultCause)) = some ([0x10], true, some .popEmpty) := by
  decide +kernel

/-- V-B14. -/
theorem test_at_across_blocks : shows (.bsAt 259 66) (tmps full69 .empty) State.response =
    some [0x00, 0x01] := by decide +kernel

/-- V-B13. -/
theorem test_at_past_the_end : shows (.bsAt 259 3) (tmps b101 .empty) State.response =
    some [0x11] := by decide +kernel

/-- V-B14. -/
theorem test_size : shows (.bsSize 259) (tmps full69 .empty) State.response =
    some [0x00, 0x45, 0, 0, 0, 0, 0, 0, 0] := by decide +kernel

/-- V-B15. -/
theorem test_iter : shows (.bsIter 259) (tmps b101 .empty) State.response =
    some [0x00, 3, 0, 0, 0, 0, 0, 0, 0, 0xA0] := by decide +kernel

/-- "aaaabbc". -/
def text : List Byte := [0x61, 0x61, 0x61, 0x61, 0x62, 0x62, 0x63]

/-- The frequency map of "aaaabbc" (V-T2). -/
def freqs : Vector Nat 256 := ((Vector.replicate 256 0).set 0x61 4).set 0x62 2 |>.set 0x63 1

/-- V-T2. -/
theorem test_freq_count : shows .freqCount { State.reset with inBuf := text } (fun t =>
    (t.freq[0x60], t.freq[0x61], t.freq[0x62], t.freq[0x63])) = some (0, 4, 2, 1) := by decide +kernel

/-- The arena of V-T2. -/
def builtArena : Arena :=
  ⟨[.leaf 0x61 4, .leaf 0x62 2, .leaf 0x63 1, .internal (some 2) (some 1) 3,
    .internal (some 3) (some 0) 7], some 4⟩

/-- V-T2. -/
theorem test_tree_build : shows .treeBuild { State.reset with freq := freqs }
    (fun t => (t.arena, t.seq, t.sort)) = some (builtArena, 5, []) := by decide +kernel

/-- V-T7: equal frequencies leave the sorter in insertion order. -/
theorem test_tree_build_ties : shows .treeBuild
    { State.reset with
      freq := (((Vector.replicate 256 0).set 0x61 1).set 0x62 1 |>.set 0x63 1).set 0x64 1 }
    (fun t => t.arena) = some ⟨[.leaf 0x61 1, .leaf 0x62 1, .leaf 0x63 1, .leaf 0x64 1,
      .internal (some 0) (some 1) 2, .internal (some 2) (some 3) 2,
      .internal (some 4) (some 5) 4], some 6⟩ := by decide +kernel

def codeA : BitSeq := ⟨[0x8000000000000000], 1⟩
def codeB : BitSeq := ⟨[0x4000000000000000], 2⟩
def codeC : BitSeq := ⟨[0], 2⟩

/-- The reset state with the code table of V-T2. -/
def tabled : State := ((State.reset.setCode 0x61 codeA).setCode 0x62 codeB).setCode 0x63 codeC

/-- V-T2. -/
theorem test_table_derive : shows .tableDerive { State.reset with arena := builtArena }
    (fun t => ([0x60, 0x61, 0x62, 0x63].map t.codeOf, [0x60, 0x61, 0x62, 0x63].map t.validOf)) =
    some ([.empty, codeA, codeB, codeC], [false, true, true, true]) := by decide +kernel

/-- V-T2. -/
theorem test_data_encode : shows .dataEncode { tabled with inBuf := text } (fun t => t.data) =
    some ⟨[0xF500000000000000], 10⟩ := by decide +kernel

/-- V-C16. -/
theorem test_data_encode_no_code : shows .dataEncode { State.reset with inBuf := [0x61] }
    (fun t => (t.response, t.fault)) = some ([0x18], true) := by decide +kernel

/-- The container V-H1. -/
def container : List Byte :=
  [0x00, 0x03, 0x61, 0x62, 0x63, 0x01, 0x02, 0x02, 0xA0, 0x00, 0x01, 0x02, 0xF5, 0x00]

/-- V-H1. -/
theorem test_serialize : shows .hefSerialize (tabled.setReg 258 ⟨[0xF500000000000000], 10⟩)
    (fun t => (t.blob, t.taN, t.codes)) = some (container, 3, ⟨[0xA000000000000000], 5⟩) := by
  decide +kernel

/-- The paragraph after V-H15. -/
theorem test_deserialize : shows .hefDeserialize { State.reset with blob := container }
    (fun t => (t.taEntries, t.codes, t.data, t.cur)) =
    some ([(0x61, 1), (0x62, 2), (0x63, 2)], ⟨[0xA000000000000000], 5⟩,
      ⟨[0xF500000000000000], 10⟩, 14) := by decide +kernel

/-- V-E7. -/
theorem test_deserialize_alphabet : shows .hefDeserialize { State.reset with blob := [1, 1, 1] }
    (fun t => (t.response, t.fault)) = some ([0x04], false) := by decide +kernel

/-- The tree arrays of V-H1. -/
def arrays : State :=
  { State.reset with
    taN := 3
    taSym := treeArray [0x61, 0x62, 0x63]
    taLen := treeArray [1, 2, 2]
    codes := ⟨[0xA000000000000000], 5⟩ }

/-- The paragraph after V-H15. -/
theorem test_table_load : shows .tableLoad arrays
    (fun t => ([0x60, 0x61, 0x62, 0x63].map t.codeOf, [0x60, 0x61, 0x62, 0x63].map t.validOf)) =
    some ([.empty, codeA, codeB, codeC], [false, true, true, true]) := by decide +kernel

/-- V-E10. -/
theorem test_table_load_twice : shows .tableLoad
    { arrays with taN := 2, taSym := treeArray [0x61, 0x61], taLen := treeArray [1, 1] }
    (fun t => (t.response, t.faultCause)) = some ([0x14], some .dupSymbol) := by decide +kernel

/-- V-T15 (a): "0" already holds 'a'. -/
def oneLeaf : Arena := ⟨[.internal (some 1) none 0, .leaf 0x61 0], some 0⟩

/-- V-T12, the insertion of b = "01" beside a = "1". -/
theorem test_insert : shows (.treeInsert 0x62 259)
    { tmps codeB .empty with arena := ⟨[.internal none (some 1) 0, .leaf 0x61 0], some 0⟩ }
    (fun t => t.arena) = some ⟨[.internal (some 2) (some 1) 0, .leaf 0x61 0,
      .internal none (some 3) 0, .leaf 0x62 0], some 0⟩ := by decide +kernel

/-- V-T15 (a). -/
theorem test_insert_conflict : shows (.treeInsert 0x62 259) { tmps codeB .empty with arena := oneLeaf }
    (fun t => (t.response, t.arena)) = some ([0x13], oneLeaf) := by decide +kernel

/-- The arena of V-T12. -/
def insertedArena : Arena :=
  ⟨[.internal (some 2) (some 1) 0, .leaf 0x61 0, .internal (some 4) (some 3) 0, .leaf 0x62 0,
    .leaf 0x63 0], some 0⟩

/-- V-T12. -/
theorem test_from_table : shows .treeFromTable tabled (fun t => t.arena) = some insertedArena := by
  decide +kernel

/-- V-T16, the second row. -/
theorem test_tree_decode : shows .treeDecode
    { State.reset with
      arena := insertedArena, data := ⟨[0xF500000000000000], 10⟩, outBuf := [0x78, 0x79] }
    (fun t => t.outBuf) = some (0x78 :: 0x79 :: text) := by decide +kernel

/-- V-T18, DATA = "001". -/
theorem test_tree_decode_bad_stream : shows .treeDecode
    { State.reset with arena := oneLeaf, data := ⟨[0x2000000000000000], 3⟩, outBuf := [0x78] }
    (fun t => (t.response, t.outBuf)) = some ([0x15], [0x78]) := by decide +kernel

/-- R152, V-T14. -/
theorem test_tree_init : shows .treeInit { State.reset with arena := builtArena }
    (fun t => t.arena) = some ⟨[.internal none none 0], some 0⟩ := by decide +kernel

/-- V-H5. -/
theorem test_encode : shows .encodeInput
    { State.reset with
      inBuf := [0x61, 0x62, 0x72, 0x61, 0x63, 0x61, 0x64, 0x61, 0x62, 0x72, 0x61] }
    (fun t => t.blob) = some [0x00, 0x05, 0x61, 0x62, 0x63, 0x64, 0x72, 0x01, 0x03, 0x03, 0x03, 0x03,
      0x69, 0x78, 0x00, 0x02, 0x07, 0x6E, 0x8A, 0xDC] := by decide +kernel

/-- V-A4: entries in descending order, OUT loaded before. -/
theorem test_decode : shows .decodeBlob
    { State.reset with
      outBuf := [0x78]
      blob := [0x00, 0x03, 0x63, 0x62, 0x61, 0x02, 0x02, 0x01, 0x18, 0x00, 0x01, 0x02, 0xF5, 0x00] }
    (fun t => (t.outBuf, t.cur, t.arena)) = some (0x78 :: text, 14, insertedArena) := by decide +kernel

/-- V-C2. -/
theorem test_csr_node_cap : shows (.csrRead 0x12) State.reset State.response =
    some [0x00, 0x01, 0xFF, 0, 0, 0, 0, 0, 0] := by decide +kernel

/-- V-C5. -/
theorem test_csr_status : shows (.csrRead 0x00)
    { State.reset with status := .callError .truncated } (fun t => (t.response, t.status)) =
    some ([0x00, 0x02, 0, 0, 0, 0, 0, 0, 0], .ok) := by decide +kernel

/-- V-V2. -/
theorem test_varint_tag0 : shows (.varintTag0 255) { State.reset with blob := [0x00, 0xFF] }
    (fun t => (t.response, t.cur)) = some ([0x00, 0xFF, 0, 0, 0, 0, 0, 0, 0], 2) := by decide +kernel

/-- V-V10. -/
theorem test_varint_tag1 : shows (.varintTag1 3) { State.reset with blob := [0x01, 3, 0] }
    (fun t => (t.response, t.cur)) = some ([0x00, 3, 0, 0, 0, 0, 0, 0, 0], 3) := by decide +kernel

/-- V-V5. -/
theorem test_varint_tag2 : shows (.varintTag2 65536) { State.reset with blob := [0x02, 0, 0, 1, 0] }
    (fun t => (t.response, t.cur)) = some ([0x00, 0, 0, 1, 0, 0, 0, 0, 0], 5) := by decide +kernel

/-- V-V11. -/
theorem test_varint_tag3 : shows (.varintTag3 5)
    { State.reset with blob := [0x03, 5, 0, 0, 0, 0, 0, 0, 0] }
    (fun t => (t.response, t.cur)) = some ([0x00, 5, 0, 0, 0, 0, 0, 0, 0], 9) := by decide +kernel

/-- Varint bytes of V-V1 to V-V8. -/
theorem test_varint_bytes : varint 0 = .ok [0x00, 0x00] ∧ varint 255 = .ok [0x00, 0xFF] ∧
    varint 256 = .ok [0x01, 0x00, 0x01] ∧ varint 65535 = .ok [0x01, 0xFF, 0xFF] ∧
    varint 65536 = .ok [0x02, 0, 0, 1, 0] ∧ varint 4294967295 = .ok [0x02, 0xFF, 0xFF, 0xFF, 0xFF] ∧
    varint 4294967296 = .ok [0x03, 0, 0, 0, 0, 1, 0, 0, 0] ∧
    varint 18446744073709551615 =
      .ok [0x03, 0xFF, 0xFF, 0xFF, 0xFF, 0xFF, 0xFF, 0xFF, 0xFF] := by
  refine ⟨?_, ?_, ?_, ?_, ?_, ?_, ?_, ?_⟩ <;> rfl

/-- The latch: any packet is refused while FAULT = 1, even an illegal one (V-C12). -/
theorem test_step_refused : (nextOf (step { State.reset with
      fault := true, faultCause := some .popEmpty, pending := [.command [0xFF]] })).map
      (fun t => (t.response, t.faultCause)) = some ([0x1F], some .popEmpty) := by decide +kernel

/-- V-C1: a CSR.READ packet as the first transaction after reset. -/
theorem test_step_first_packet :
    (nextOf (step { State.reset with pending := [.command [0x50, 0x10]] })).map State.response =
      some [0x00, 0x40, 0, 0, 0, 0, 0, 0, 0] := by decide +kernel

/-- A DECODE of the empty BLOB, then a CSR.READ: E_TRUNCATED, then OK (V-C15, V-C5). -/
def failing : State := { State.reset with pending := [.command [0x43], .command [0x50, 0x00]] }

/-- R255: that run went wrong for a host that cares about its first response, though FAULT = 0. -/
theorem test_run_went_wrong : failing.WentWrong (fun i => decide (i = 0)) :=
  .inr ⟨0, (.command [0x43], [0x02]), by decide +kernel, rfl, rfl⟩

/-- R255: a run ends with the response to its last command, so a HostReset after it hides no fault. -/
theorem test_run_ends_at_last_command :
    runLength [.loadIn [1], .command [0x15, 0x05, 0x01], .reset, .readOut] = 2 ∧
    (runLength [.reset, .readOut], runLength []) = (2, 0) := by decide

theorem test_run_second_response :
    (failing.exchanges 2).map responseNotOk = [true, false] := by decide +kernel

/-- Rows of the opcode table placed after reset run as the first instruction. -/
theorem test_step_placed_rows :
    (nextOf (step (State.reset.withFetchWord 32 0x01010312))).map (fun t => t.reg 259) =
      some codeA ∧
    (nextOf (step (State.reset.withFetchWord 24 0x123401))).map (fun t => (t.response, t.blob)) =
      some ([0x00, 0x34, 0x12, 0, 0, 0, 0, 0, 0], [0x01, 0x34, 0x12]) := by decide +kernel

/-! ### Witnesses: the hypotheses of each obligation met together -/

theorem next_of {o : Host.Outcome State Fault Refusal} (h : (nextOf o).isSome = true) :
    ∃ t, o = .next t := by
  cases o with
  | next t => exact ⟨t, rfl⟩
  | fault f => exact absurd h (by simp [nextOf])
  | refused r => exact absurd h (by simp [nextOf])

theorem nextOf_eq {o : Host.Outcome State Fault Refusal} {u : State} (h : nextOf o = some u) :
    o = .next u := by
  cases o with
  | next t => exact congrArg _ (by simpa [nextOf] using h)
  | fault f => simp [nextOf] at h
  | refused r => simp [nextOf] at h

/-- Where an instruction ends with a next state that shows `x`. -/
theorem next_shows {α : Type} {i : Instr} {s : State} {f : State → α} {x : α}
    (h : shows i s f = some x) : ∃ t, exec i s = .next t ∧ f t = x := by
  obtain ⟨t, ht, hf⟩ := Option.map_eq_some_iff.mp (show (nextOf (exec i s)).map f = some x from h)
  exact ⟨t, nextOf_eq ht, hf⟩

/-- R255: nor from the run's verdict. -/
theorem test_run_reset_hides_no_fault :
    ({ State.reset with pending := [.command [0x15, 0x05, 0x01], .reset] } : State).WentWrong
      (fun _ => false) := by
  obtain ⟨t, h, hf⟩ := next_shows (i := .bsPop 261) (s := { State.reset with pending := [.reset] })
    (f := State.fault) (x := true) (by decide +kernel)
  exact .inl ⟨t, by
    show Host.Core.run Sys2Proof.core 1 _ = _
    simp only [Host.Core.run]
    rw [show Sys2Proof.core.step { State.reset with
      pending := [.command [0x15, 0x05, 0x01], .reset] } = .next t from h], hf⟩

/-- Every register of a state, once. -/
def regList (s : State) : List BitSeq :=
  s.code.toList ++ s.path :: s.codes :: s.data :: s.tmp.toList

theorem regsWf_intro {s : State}
    (h : (regList s).all (fun v => decide (v.Wf ∧ capAllows s.caps.bsCap v.size = true)) = true) :
    s.RegsWf := by
  intro r
  have hm : s.reg r.val ∈ regList s := by
    have := r.isLt
    simp only [State.reg, regList]
    split_ifs <;> (simp; try omega)
  exact of_decide_eq_true (List.all_eq_true.1 h _ hm)

/-- The invariant of a state whose last command was OK, from its registers and its other parts. -/
theorem inv_intro {s : State} (hc : s.faultCause = none) (hf : s.fault = false) (ho : s.status = .ok)
    (hr : (regList s).all (fun v => decide (v.Wf ∧ capAllows s.caps.bsCap v.size = true)) = true)
    (h : s.caps.Legal ∧ s.FreqWf ∧ SorterWf s.sort ∧ s.seq < 2 ^ 64 ∧ s.arena.Wf ∧
      s.taN ≤ 256 ∧ s.BuffersWf) : s.Inv := by
  obtain ⟨h1, h3, h4, h5, h6, h7, h8⟩ := h
  refine ⟨h1, regsWf_intro hr, h3, h4, h5, h6, h7, h8, ?_⟩
  simp only [State.LatchWf, hc]
  exact ⟨hf, by rw [ho]; decide⟩

/-- A tree by insertion, data bits, a register and finite capacities, DATA exactly at BS_CAP. -/
def grown : State :=
  { tmps codeB codeA with
    arena := insertedArena
    data := ⟨[0xF500000000000000], 10⟩
    outBuf := [0x78]
    caps := ⟨some 4, some 8, some 14, some 10⟩ }

theorem grown_inv : grown.Inv := inv_intro rfl rfl rfl (by decide +kernel) (by decide +kernel)

/-- A code table, its data and its tree arrays. -/
def coded : State :=
  { tabled with
    data := ⟨[0xF500000000000000], 10⟩
    inBuf := text
    taN := 3
    taSym := treeArray [0x61, 0x62, 0x63]
    taLen := treeArray [1, 2, 2]
    codes := ⟨[0xA000000000000000], 5⟩ }

theorem coded_inv : coded.Inv := inv_intro rfl rfl rfl (by decide +kernel) (by decide +kernel)

theorem coded_valid (y : Byte) (h : coded.validOf y = true) : y = 0x61 ∨ y = 0x62 ∨ y = 0x63 := by
  by_contra hn
  simp only [not_or] at hn
  obtain ⟨ha, hb, hc⟩ := hn
  have e : coded.validOf y = tabled.validOf y := rfl
  rw [e, tabled, State.validOf_setCode_ne _ _ _ _ hc, State.validOf_setCode_ne _ _ _ _ hb,
    State.validOf_setCode_ne _ _ _ _ ha] at h
  simp [State.reset, State.validOf] at h

theorem coded_codes : coded.codeOf 0x61 = codeA ∧ coded.codeOf 0x62 = codeB ∧
    coded.codeOf 0x63 = codeC := by decide +kernel

theorem coded_alphabet : coded.alphabet = [0x61, 0x62, 0x63] := by decide +kernel

theorem coded_prefixFree : PrefixFree coded := by
  intro y z hy hz hn
  obtain ⟨ha, hb, hc⟩ := coded_codes
  obtain rfl | rfl | rfl := coded_valid y hy <;> obtain rfl | rfl | rfl := coded_valid z hz <;>
    simp only [ha, hb, hc] <;> first | exact absurd rfl hn | decide

/-- Every request can be the oldest one waiting, on a usable core and on a latched one: the packets of
O5, O12, O13, the loads of O7 and O13, the reset of O1, the reader of O5. -/
theorem witness_pending (q : Request) (b : Bool) :
    ∃ (s : State) (rest : List Request), s.fault = b ∧ s.pending = q :: rest :=
  ⟨{ State.reset with fault := b, pending := [q] }, [], rfl, rfl⟩

/-- Loads exactly as long as their capacities (O4, O7, O13). -/
theorem witness_loads_at_capacity :
    { grown with pending := [.loadIn [1, 2, 3, 4]] }.HostMoveLegal ∧
    { grown with pending := [.loadOut [1, 2, 3, 4, 5, 6, 7, 8]] }.HostMoveLegal ∧
    { grown with pending := [.loadBlob container] }.HostMoveLegal ∧
    ¬ { grown with pending := [.loadIn [1, 2, 3, 4, 5]] }.HostMoveLegal := by decide

theorem witness_StepKeepsTheInvariant : ∃ s t : State, s.Inv ∧ step s = .next t := by
  obtain ⟨t, h⟩ := next_of (o := step { grown with pending := [.command [0x33]] }) (by decide +kernel)
  exact ⟨{ grown with pending := [.command [0x33]] }, t, grown_inv, h⟩

theorem witness_LegalMovesNeverStop : ∃ s : State, s.Inv ∧ s.HostMoveLegal ∧ s.pending ≠ [] :=
  ⟨{ grown with pending := [.loadIn [1, 2, 3, 4]] }, grown_inv, by decide, by decide⟩

theorem witness_StepRunsTheDecodedInstruction :
    ∃ (s u : State) (i j : Instr) (p tail : List Byte), s.pending = [.command p] ∧
      decodeCommand p = .ok i ∧ u.pending = [.readVarint] ∧
      decodeVarint (u.blob.drop u.cur) = .ok (j, tail) :=
  ⟨{ State.reset with pending := [.command [0x15, 0x06, 0x01]] },
    { State.reset with pending := [.readVarint], blob := [0xAA, 0x01, 0x34, 0x12], cur := 1 },
    .bsPop 262, .varintTag1 0x1234, [0x15, 0x06, 0x01], [], rfl, rfl, rfl, rfl⟩

/-- A command row, and a varint row (placed at any CUR). -/
theorem witness_PlacedRowIsRun : decodeTableWord 32 0x01036131 = some (.treeInsert 0x61 259) ∧
    (Instr.treeInsert 0x61 259).isVarint = false ∧
    decodeTableWord 24 0x123401 = some (.varintTag1 0x1234) ∧
    (Instr.varintTag1 0x1234).isVarint = true := ⟨rfl, rfl, rfl, rfl⟩

theorem witness_DecodeInvertsEncode : (Instr.bsCopy 262 0).isVarint = false ∧
    (Instr.bsCopy 262 0).WellFormed ∧ (Instr.csrRead 0x13).WellFormed ∧
    (Instr.bsPushBit 0 1).WellFormed := by decide

theorem witness_DecodedPacketsAreEncodings :
    decodeCommand [0x11, 0x06, 0x01, 0x00, 0x00] = .ok (.bsCopy 262 0) := rfl

theorem witness_VarintFormsRoundTrip : (Instr.varintTag3 5).isVarint = true ∧
    decodeVarint [0x03, 5, 0, 0, 0, 0, 0, 0, 0, 9] = .ok (.varintTag3 5, [9]) := ⟨rfl, rfl⟩

/-- One packet for each case of R86, on a core with FAULT = 0 (witness_pending). -/
theorem witness_IllegalPacketsLatchTheCore : packetFault [] = some .emptyPacket ∧
    packetFault [0x03] = some .reservedOpcode ∧ packetFault [0x42, 0x00] = some .badLength ∧
    packetFault [0x14, 0x06, 0x01, 0x07, 0x01] = some .badRegister ∧
    packetFault [0x12, 0x03, 0x01, 0x02] = some .badBit ∧
    packetFault [0x50, 0x14] = some .badCsr := by decide

/-- A command that ends OK without result bytes, one with result bytes, one that raises. -/
theorem witness_ResponseCarriesTheStatus :
    (∃ t, exec .treeDecode grown = .next t ∧ t.status = .ok) ∧
    (∃ t, exec (.bsSize 259) grown = .next t ∧ t.status = .ok) ∧
    ∃ t, exec (.bsPop 261) grown = .next t ∧ t.status = .fault .popEmpty :=
  ⟨next_shows (by decide +kernel), next_shows (by decide +kernel), next_shows (by decide +kernel)⟩

theorem witness_LatchNamesItsCause :
    (grown.fault = false ∧ grown.faultCause = none ∧
      ∃ t, exec (.bsPop 261) grown = .next t ∧ t.status = .fault .popEmpty) ∧
    ∃ s t : State, s.fault = true ∧ (∀ rest, s.pending ≠ .reset :: rest) ∧ step s = .next t := by
  refine ⟨⟨rfl, rfl, next_shows (by decide +kernel)⟩, ?_⟩
  obtain ⟨t, h⟩ := next_of (o := step { grown with fault := true, pending := [.command [0x42]] })
    (by decide +kernel)
  exact ⟨{ grown with fault := true, pending := [.command [0x42]] }, t, rfl, by simp, h⟩

/-- Also the witness of the other obligations with FAULT = 0 as their only hypothesis. -/
theorem witness_CsrReadReturnsTheRegister : grown.fault = false ∧ (0x06, 0) ∈ csrTable grown ∧
    (0x12, 65281) ∈ csrTable grown ∧ (0x04, 1) ∈ csrTable grown := by
  refine ⟨rfl, ?_, ?_, ?_⟩
  · exact List.mem_of_getElem? (i := 6) rfl
  · exact List.mem_of_getElem? (i := 16) rfl
  · exact List.mem_of_getElem? (i := 4) rfl

theorem witness_OnlyTheNamedInstructionsWrite : ∃ (i : Instr) (s t : State), exec i s = .next t ∧
    writesOut i = false ∧ writesBlob i = false ∧ writesCur i = false ∧ writesFreq i = false ∧
    writesSorter i = false ∧ writesArena i = false ∧ writesValid i = false ∧
    writesTreeArrays i = false ∧ writesReg i 259 = false ∧ writesReg i 260 = true := by
  obtain ⟨t, h⟩ := next_of (o := exec (.bsCopy 260 259) grown) (by decide +kernel)
  exact ⟨.bsCopy 260 259, grown, t, h, by decide⟩

/-- The rows of R229 have raises; those of HEF.SERIALIZE, ENCODE and DECODE are in the next witness. -/
theorem witness_RaiseLeavesTheRestUnchanged :
    shows (.bsPop 261) grown State.status = some (.fault .popEmpty) ∧
    shows .tableDerive { grown with caps := ⟨none, none, none, some 1⟩ } State.status =
      some (.callError .capacity) ∧
    shows .dataEncode { State.reset with inBuf := [0x61] } State.status = some (.fault .noCode) ∧
    shows .hefDeserialize { State.reset with blob := [0x04, 0x00] } State.status =
      some (.callError .badTag) ∧
    shows .tableLoad { coded with codes := codeC } State.status = some (.fault .index) ∧
    shows .treeFromTable (coded.setCode 0x64 codeA) State.status = some (.fault .tableConflict) ∧
    shows (.varintTag1 7) { State.reset with blob := [0x01, 7] } State.status =
      some (.callError .truncated) := by
  refine ⟨?_, ?_, ?_, ?_, ?_, ?_, ?_⟩ <;> decide +kernel

theorem witness_OutputsAreNeverPartlyWritten :
    (∃ t, exec .hefSerialize { coded with caps := ⟨none, none, some 13, none⟩ } = .next t ∧
      t.status = .callError .capacity) ∧
    (∃ t, exec .encodeInput { State.reset with
        inBuf := text, caps := ⟨none, none, none, some 0⟩ } = .next t ∧
      t.status = .callError .capacity) ∧
    (∃ t, exec .treeDecode { State.reset with arena := oneLeaf, data := codeA } = .next t ∧
      t.status = .fault .badStream) ∧
    ∃ t, exec .decodeBlob { State.reset with blob := [0, 0, 0, 0, 8] } = .next t ∧
      t.status = .callError .remainder :=
  ⟨next_shows (by decide +kernel), next_shows (by decide +kernel), next_shows (by decide +kernel),
    next_shows (by decide +kernel)⟩

/-- Well-formed values at every corner of the block algorithms: empty, a full last block, two blocks, a
fill of 61 (O21 to O26). -/
theorem witness_block_values : BitSeq.Wf ⟨[0], 0⟩ ∧ ones64.Wf ∧ full69.Wf ∧ ones61.Wf ∧
    0 < full69.size ∧ 68 < full69.size ∧ full69.size + ones61.size = 130 ∧
    full69.bits ≠ ones64.bits := by decide +kernel

theorem witness_MkIsTheOnlyWellFormedValue : b101.Wf ∧ b101.bits = [true, false, true] ∧
    0 < (BitSeq.ofBits [true]).blocks.length ∧ BitSeq.Wf ⟨[0], 0⟩ := by decide +kernel

theorem witness_BlockAlgorithmsGiveTheAbstractResult : full69.Wf ∧ (8 : Nat) ≤ 8 ∧ (0 : Nat) ≤ 8 ∧
    ones64.Wf ∧ 0 < full69.size ∧ 68 < full69.size := by decide +kernel

theorem witness_PushByteIsRepeatedPushBit : ones61.Wf ∧ ones64.Wf ∧ (8 : Nat) ≤ 8 ∧ (0 : Nat) ≤ 8 := by
  decide +kernel

theorem witness_PopUndoesPushBit : ones64.Wf ∧ BitSeq.Wf ⟨[0], 0⟩ := by decide +kernel

theorem witness_SizesAddUp : full69.Wf ∧ ones61.Wf ∧ (8 : Nat) ≤ 8 ∧ 0 < full69.size := by
  decide +kernel

theorem witness_ConcatenationKeepsBothOperands : ones61.Wf ∧ full69.Wf ∧ 60 < ones61.size ∧
    ones61.size ≤ 61 ∧ 129 < ones61.size + full69.size := by decide +kernel

/-- The last register number, and the one after it that names no register. -/
theorem witness_ClearAndCopyWriteOneRegister : grown.fault = false ∧ (262 : BitVec 16).toNat < 263 ∧
    (255 : BitVec 16).toNat < 263 ∧ ¬ (263 : BitVec 16).toNat < 263 := by decide

/-- DATA of `grown` is one bit, and TMP0 exactly eight, below BS_CAP = 10. -/
theorem witness_PushesAppendToOneRegister : grown.fault = false ∧ (grown.reg 259).Wf ∧
    (grown.reg 260).Wf ∧ (1 : Byte).toNat ≤ 1 ∧ (8 : Byte).toNat ≤ 8 ∧
    capAllows grown.caps.bsCap ((grown.reg 259).size + 1) = true ∧
    capAllows grown.caps.bsCap ((grown.reg 259).size + 8) = true ∧
    capAllows grown.caps.bsCap ((grown.reg 259).size + (grown.reg 260).size) = true := by
  decide +kernel

theorem witness_PopDropsTheLastBit : grown.fault = false ∧ (260 : BitVec 16).toNat < 263 ∧
    (grown.reg 260).Wf ∧ 0 < (grown.reg 260).size := by decide +kernel

/-- The last index of TMP0, whose size is 2; the first past it is in the next witness. -/
theorem witness_AtSizeIterReturnAndChangeNothing : grown.fault = false ∧
    (1 : BitVec 64).toNat < (grown.reg 259).size ∧ (grown.reg 259).size < 2 ^ 64 := by decide +kernel

theorem witness_BitSequencePreconditionsLatch : grown.fault = false ∧ (grown.reg 261).size = 0 ∧
    (grown.reg 259).size ≤ (2 : BitVec 64).toNat ∧ 8 < (9 : Byte).toNat := by decide +kernel

theorem witness_PushPastCapacityIsACallError : grown.fault = false ∧ grown.caps.bsCap = some 10 ∧
    10 < (grown.reg 258).size + 1 ∧ (1 : Byte).toNat ≤ 1 ∧
    10 < (grown.reg 258).size + (1 : Byte).toNat ∧ (1 : Byte).toNat ≤ 8 ∧
    10 < (grown.reg 258).size + (grown.reg 260).size := by decide +kernel

/-- The empty map, and one with a symbol in it. -/
theorem witness_TreeBuildEndState : ({ State.reset with freq := freqs } : State).fault = false ∧
    inMap State.reset.freq = [] ∧ ∃ j : Nat, (inMap freqs)[j]? = some 0x63 := by
  refine ⟨rfl, by simp [inMap, State.reset], List.mem_iff_getElem?.1 ?_⟩
  simp [inMap, freqs]

/-- The first merge of V-T2, node 3: 'c' and 'b', with 'a' left. -/
theorem witness_TreeBuildMergesTheTwoLeast : ({ State.reset with freq := freqs } : State).fault = false ∧
    ∃ t, exec .treeBuild { State.reset with freq := freqs } = .next t ∧ t.arena = builtArena ∧
      builtArena.nodes[3]? = some (.internal (some 2) (some 1) 3) ∧
      (∀ (i : Nat) (n : Node), i < 3 → builtArena.nodes[i]? = some n → 0 ∉ n.children) := by
  refine ⟨rfl, ?_⟩
  obtain ⟨t, h, ha⟩ := next_shows (f := State.arena) (x := builtArena) (i := .treeBuild)
    (s := { State.reset with freq := freqs }) (by decide +kernel)
  refine ⟨t, h, ha, rfl, ?_⟩
  intro i n hi hn
  match i, hi with
  | 0, _ => simp [builtArena] at hn; subst hn; simp [Node.children]
  | 1, _ => simp [builtArena] at hn; subst hn; simp [Node.children]
  | 2, _ => simp [builtArena] at hn; subst hn; simp [Node.children]

theorem witness_OneSymbolGetsTheEmptyCode :
    ∃ (s : State) (y : Fin 256), s.fault = false ∧ 0 < s.freq[y] ∧
      ∀ z : Fin 256, z ≠ y → s.freq[z] = 0 := by
  refine ⟨{ State.reset with freq := (Vector.replicate 256 0).set 0x61 4 }, 0x61, rfl, by simp, ?_⟩
  intro z hz
  have : (0x61 : Nat) ≠ z.val := fun h => hz (Fin.ext h.symm)
  simp [this]

/-- 'a' at "0", with BS_CAP = n. -/
def shallow (n : Nat) : State :=
  { State.reset with arena := oneLeaf, caps := ⟨none, none, none, some n⟩ }

/-- A tree of depth 1 with BS_CAP exactly 1, and with BS_CAP = 0. -/
theorem witness_TableDeriveListsTheLeaves :
    (shallow 1).Inv ∧ (shallow 1).fault = false ∧ DepthFits (shallow 1) ∧
      LeafAt (shallow 1).arena 0 [false] 0x61 ∧
    (shallow 0).Inv ∧ (shallow 0).fault = false ∧ ¬ DepthFits (shallow 0) := by
  refine ⟨inv_intro rfl rfl rfl (by decide +kernel) (by decide +kernel), rfl, ?_, ⟨1, 0, rfl, rfl⟩,
    inv_intro rfl rfl rfl (by decide +kernel) (by decide +kernel), rfl, ?_⟩
  · intro root j p hr hd
    have hr' : some 0 = some root := hr
    cases hr'
    match p, hd with
    | [], _ => rfl
    | [_], _ => rfl
    | true :: _ :: _, h => exact absurd (show none = some j from h) (by simp)
    | false :: b :: _, h => exact absurd (show none = some j from h) (by simp)
  · intro h
    exact absurd (h 0 1 [false] rfl rfl) (by decide)

theorem witness_DerivedTableIsPrefixFree : grown.Inv ∧
    ∃ t, exec .tableDerive grown = .next t ∧ t.status = .ok :=
  ⟨grown_inv, next_shows (by decide +kernel)⟩

/-- 'b' at "01" beside a leaf at "1" (V-T12). -/
def planted : State :=
  { tmps codeB .empty with arena := ⟨[.internal none (some 1) 0, .leaf 0x61 0], some 0⟩ }

theorem planted_inv : planted.Inv := inv_intro rfl rfl rfl (by decide +kernel) (by decide +kernel)

/-- A code of 65281 bits, all 0: it needs one node too many. -/
def longCode : BitSeq := ⟨List.replicate 1021 0, 1⟩

theorem longCode_length : longCode.bits.length = 65281 := by
  simp only [BitSeq.bits, unpackWords, List.length_map, List.length_range]
  decide +kernel

/-- The bare root, and TMP0 with the long code. -/
def overgrown : State := { tmps longCode .empty with arena := bareRoot }

/-- The walk of "01" leaves the tree at once; a code whose end is a childless node; a code that needs more
nodes than NODE_CAP. -/
theorem witness_TreeInsertAddsExactlyOneLeaf :
    (planted.Inv ∧ planted.fault = false ∧ planted.arena.root = some 0 ∧
      (planted.reg 259).bits = [] ++ [false, true] ∧ InnerAt planted.arena 0 [] none (some 1) ∧
      (∀ b rest, [false, true] = b :: rest → (if b then some 1 else none : Option Nat) = none) ∧
      planted.arena.nodes.length + [false, true].length ≤ 65281) ∧
    (InnerAt bareRoot 0 [] none none ∧ (State.reset.reg 259).bits = [] ++ []) ∧
    (overgrown.Inv ∧ overgrown.fault = false ∧ overgrown.arena.root = some 0 ∧
      InnerAt overgrown.arena 0 [] none none ∧ overgrown.reg 259 = longCode ∧
      65281 < overgrown.arena.nodes.length + longCode.bits.length) := by
  refine ⟨⟨planted_inv, rfl, rfl, by decide +kernel, ⟨0, 0, rfl, rfl⟩, ?_, by decide +kernel⟩,
    ⟨⟨0, 0, rfl, rfl⟩, by decide +kernel⟩,
    ⟨inv_intro rfl rfl rfl (by decide +kernel) (by decide +kernel), rfl, rfl, ⟨0, 0, rfl, rfl⟩, ?_, ?_⟩⟩
  · intro b rest h
    cases h
    rfl
  · simp [overgrown, tmps, State.reg, State.setReg]
  · rw [longCode_length]
    decide

/-- No root; a leaf on the way; a node with a child at the end. -/
theorem witness_TreeInsertConflictsLatch : State.reset.arena.root = none ∧
    (codeB.bits = [false, true] ∧ LeafAt oneLeaf 0 [false] 0x61 ∧ [false] <+: [false, true]) ∧
    InnerAt insertedArena 0 [false] (some 4) (some 3) :=
  ⟨rfl, ⟨by decide +kernel, ⟨1, 0, rfl, rfl⟩, by decide⟩, 2, 0, rfl, rfl⟩

theorem coded_nodesFit : NodesFit coded := by
  intro ps hn hp
  have hs : ps ⊆ [[true], [false], [false, true], [false, false]] := by
    intro p hm
    obtain ⟨h0, y, hv, hy⟩ := hp p hm
    obtain ⟨ha, hb, hc⟩ := coded_codes
    have ba : codeA.bits = [true] := by decide +kernel
    have bb : codeB.bits = [false, true] := by decide +kernel
    have bc : codeC.bits = [false, false] := by decide +kernel
    obtain rfl | rfl | rfl := coded_valid y hv
    · rw [ha, ba, ← List.mem_inits] at hy
      simp at hy
      aesop
    · rw [hb, bb, ← List.mem_inits] at hy
      simp at hy
      aesop
    · rw [hc, bc, ← List.mem_inits] at hy
      simp at hy
      aesop
  have := (List.subperm_of_subset hn hs).length_le
  simp at this
  omega

/-- The table whose one code is the long one. -/
def longTable : State := State.reset.setCode 0x61 longCode

theorem longTable_valid (y : Byte) (h : longTable.validOf y = true) : y = 0x61 := by
  by_contra hn
  rw [longTable, State.validOf_setCode_ne _ _ _ _ hn] at h
  simp [State.reset, State.validOf] at h

theorem longTable_overflows : ¬ NodesFit longTable := by
  intro h
  have := h ((List.range 65281).map fun n => longCode.bits.take (n + 1)) ?_ ?_
  · simp at this
  · refine List.Nodup.map_on ?_ List.nodup_range
    intro a ha b hb hab
    have := congrArg List.length hab
    simp only [List.length_take, longCode_length] at this
    simp only [List.mem_range] at ha hb
    omega
  · intro p hp
    obtain ⟨n, -, rfl⟩ := List.mem_map.1 hp
    refine ⟨?_, 0x61, by simp [longTable], ?_⟩
    · intro h0
      have := congrArg List.length h0
      simp only [List.length_take, longCode_length, List.length_nil] at this
      omega
    · simp only [longTable, State.codeOf_setCode_same]
      exact List.take_prefix _ _

theorem witness_FromTableRebuildsTheTable :
    (coded.Inv ∧ coded.fault = false ∧ PrefixFree coded ∧ NodesFit coded) ∧
    (longTable.Inv ∧ longTable.fault = false ∧ PrefixFree longTable ∧ ¬ NodesFit longTable) := by
  refine ⟨⟨coded_inv, rfl, coded_prefixFree, coded_nodesFit⟩,
    inv_intro rfl rfl rfl (by decide +kernel) (by decide +kernel), rfl, ?_, longTable_overflows⟩
  intro y z hy hz hn
  exact absurd ((longTable_valid y hy).trans (longTable_valid z hz).symm) hn

/-- "1" for two symbols (as V-E13). -/
def clashing : State := (State.reset.setCode 0x61 codeA).setCode 0x64 codeA

theorem clashing_code (y : Byte) (h : clashing.validOf y = true) : clashing.codeOf y = codeA := by
  by_cases hd : y = 0x64
  · rw [hd, clashing, State.codeOf_setCode_same]
  by_cases ha : y = 0x61
  · rw [ha, clashing, State.codeOf_setCode_ne _ _ _ _ (by decide), State.codeOf_setCode_same]
  · rw [clashing, State.validOf_setCode_ne _ _ _ _ hd, State.validOf_setCode_ne _ _ _ _ ha] at h
    simp [State.reset, State.validOf] at h

theorem witness_FromTableConflictLatches :
    clashing.Inv ∧ clashing.fault = false ∧ ¬ PrefixFree clashing ∧ NodesFit clashing := by
  refine ⟨inv_intro rfl rfl rfl (by decide +kernel) (by decide +kernel), rfl, ?_, ?_⟩
  · intro h
    have ha : clashing.validOf 0x61 = true := by
      rw [clashing, State.validOf_setCode_ne _ _ _ _ (by decide), State.validOf_setCode_same]
    have hd : clashing.validOf 0x64 = true := by rw [clashing, State.validOf_setCode_same]
    refine h 0x61 0x64 ha hd (by decide) ?_
    rw [clashing_code _ ha, clashing_code _ hd]
  · intro ps hn hp
    have hs : ps ⊆ [[true]] := by
      intro p hm
      obtain ⟨h0, y, hv, hy⟩ := hp p hm
      have ba : codeA.bits = [true] := by decide +kernel
      rw [clashing_code y hv, ba, ← List.mem_inits] at hy
      simp at hy
      aesop
    have := (List.subperm_of_subset hn hs).length_le
    simp at this
    omega

/-- "1" is a, "00" is c, and "0" starts a code; a LEAF root; no tree; two symbols exactly up to OUT_CAP and
past it. -/
theorem witness_TreeDecodeEmitsTheSymbols :
    (InnerAt insertedArena 0 [] (some 2) (some 1) ∧ LeafAt insertedArena 0 [true] 0x61 ∧
      LeafAt insertedArena 0 [false, false] 0x63 ∧ InnerAt insertedArena 0 [false] (some 4) (some 3) ∧
      BitSeq.bits ⟨[0x8000000000000000], 4⟩ =
        [([true], (0x61 : Byte)), ([false, false], 0x63)].flatMap Prod.fst ++ [false]) ∧
    LeafAt ⟨[.leaf 0x61 4], some 0⟩ 0 [] 0x61 ∧
    (State.reset.arena.root = none ∧ State.reset.data.size = 0 ∧
      capAllows State.reset.caps.outCap State.reset.outBuf.length = true) ∧
    (capAllows (some 2) (0 + 2) = true ∧ capAllows (some 2) (1 + 2) = false) :=
  ⟨⟨⟨0, 0, rfl, rfl⟩, ⟨1, 0, rfl, rfl⟩, ⟨4, 0, rfl, rfl⟩, ⟨2, 0, rfl, rfl⟩, by decide +kernel⟩,
    ⟨0, 4, rfl, rfl⟩, ⟨rfl, rfl, rfl⟩, rfl, rfl⟩

/-- V-T18, DATA = "001": two a's, then the missing right child of the root; and no tree with one bit. -/
theorem witness_TreeDecodeOffTheTreeLatches :
    (InnerAt oneLeaf 0 [] (some 1) none ∧ LeafAt oneLeaf 0 [false] 0x61 ∧
      (if true then (none : Option Nat) else some 1) = none ∧
      BitSeq.bits ⟨[0x2000000000000000], 3⟩ =
        [([false], (0x61 : Byte)), ([false], 0x61)].flatMap Prod.fst ++ ([] ++ true :: [])) ∧
    (State.reset.arena.root = none ∧ 0 < codeA.size) :=
  ⟨⟨⟨0, 0, rfl, rfl⟩, ⟨1, 0, rfl, rfl⟩, rfl, by decide +kernel⟩, rfl, by decide⟩

theorem witness_VarintRoundTrip : 2 ^ 64 - 1 < 2 ^ 64 ∧ 2 ^ 64 ≤ 2 ^ 64 := by decide

theorem witness_ReadVarintIsTheDecodedForm :
    decodeVarint ([0xAA, 0x01, 0x34, 0x12, 0x07].drop 1) = .ok (.varintTag1 0x1234, [0x07]) ∧
    decodeVarint ([0xAA, 0x04].drop 1) = .error .badTag ∧
    decodeVarint ([0xAA].drop 9) = .error .truncated := ⟨rfl, rfl, rfl⟩

/-- Each form exactly up to the end of BLOB, and one byte short of it. -/
theorem witness_VarintFormsMoveTheCursor :
    (∀ n ∈ [2, 3, 5, 9], ∃ s : State, s.fault = false ∧ s.cur + n ≤ s.blob.length) ∧
    ∃ s : State, s.fault = false ∧ (Instr.varintTag3 5).isVarint = true ∧
      s.blob.length < s.cur + (encode (.varintTag3 5)).length := by
  refine ⟨?_, { State.reset with blob := [3, 5, 0, 0, 0, 0, 0, 0] }, rfl, rfl, by decide⟩
  intro n hn
  refine ⟨{ State.reset with blob := List.replicate n 0 }, rfl, ?_⟩
  simp [State.reset]

theorem witness_PackIsMostSignificantBitFirst : 15 < 8 * (pack (List.replicate 9 true)).length ∧
    16 ≤ 8 * [(0xA7 : Byte), 0x80].length := by decide +kernel

theorem witness_DataEncodeConcatenatesTheCodes : coded.fault = false ∧ coded.RegsWf ∧
    (∀ y ∈ coded.inBuf, coded.validOf y = true) ∧
    capAllows coded.caps.bsCap (coded.inBuf.flatMap (symbolBits coded)).length = true :=
  ⟨rfl, coded_inv.2.1, by decide +kernel, rfl⟩

/-- The codes "1" for 'a' and "0" for 'b', BS_CAP = 1, IN = 'a' and one more. -/
def brief (y : Byte) : State :=
  { (State.reset.setCode 0x61 codeA).setCode 0x62 ⟨[0], 1⟩ with
    inBuf := [0x61, y], caps := ⟨none, none, none, some 1⟩ }

/-- BS_CAP unbounded with a symbol that is no key; and with BS_CAP = 1, "ab" after one bit that fits: 'b' is
the first to pass it, 'd' is no key. -/
theorem witness_DataEncodeNeedsEveryCode :
    (({ State.reset with inBuf := [0x61] } : State).caps.bsCap = none ∧
      ∃ y ∈ [(0x61 : Byte)], State.reset.validOf y = false) ∧
    (brief 0x62).fault = false ∧ (brief 0x62).RegsWf ∧
      (brief 0x62).inBuf = [0x61] ++ 0x62 :: [] ∧ (brief 0x64).inBuf = [0x61] ++ 0x64 :: [] ∧
      (∀ z ∈ [(0x61 : Byte)], (brief 0x62).validOf z = true) ∧
      capAllows (brief 0x62).caps.bsCap ([(0x61 : Byte)].flatMap (symbolBits (brief 0x62))).length =
        true ∧
      (brief 0x64).validOf 0x64 = false ∧ (brief 0x62).validOf 0x62 = true ∧
      capAllows (brief 0x62).caps.bsCap
        (([0x61] ++ [0x62] : List Byte).flatMap (symbolBits (brief 0x62))).length = false := by
  refine ⟨⟨rfl, 0x61, by simp, by decide +kernel⟩, rfl, regsWf_intro (by decide +kernel), rfl, rfl, ?_, ?_, ?_, ?_, ?_⟩
    <;> decide +kernel

/-- A table within every bound, one whose code has 256 bits, one whose codes pass BS_CAP. The fourth
case, a DATA of 2^67 bits, is witness_HefSerialize_wideData. -/
theorem witness_HefSerializeWritesTheContainer :
    (coded.fault = false ∧ coded.RegsWf ∧
      (∀ y, coded.validOf y = true → (coded.codeOf y).size ≤ 255) ∧ coded.data.size / 8 < 2 ^ 64) ∧
    (∃ s : State, s.fault = false ∧ s.RegsWf ∧
      ∃ y, s.validOf y = true ∧ 255 < (s.codeOf y).size) ∧
    ((brief 0x62).fault = false ∧ (brief 0x62).RegsWf ∧ capAllows (brief 0x62).caps.bsCap
      ((brief 0x62).alphabet.flatMap fun y => ((brief 0x62).codeOf y).bits).length = false) := by
  refine ⟨⟨rfl, coded_inv.2.1, ?_, by decide +kernel⟩,
    ⟨State.reset.setCode 0x61 ⟨List.replicate 4 0, 64⟩, rfl, regsWf_intro (by decide +kernel), 0x61,
      by decide +kernel, by decide +kernel⟩, rfl, regsWf_intro (by decide +kernel), by decide +kernel⟩
  intro y hy
  obtain ⟨ha, hb, hc⟩ := coded_codes
  obtain rfl | rfl | rfl := coded_valid y hy <;> simp only [ha, hb, hc] <;> decide

/-- A value of `n + 1` full blocks of zeros. -/
def zeros (n : Nat) : BitSeq := ⟨List.replicate (n + 1) 0, 64⟩

theorem zeros_wf (n : Nat) : (zeros n).Wf := by
  have h : (zeros n).lastBlock = 0 := by
    simp [zeros, BitSeq.lastBlock, List.getLastD_eq_getLast?, List.getLast?_replicate]
  refine ⟨by simp [zeros], by simp [zeros], by simp [zeros], ?_⟩
  rw [h]
  simp

theorem zeros_size (n : Nat) : (zeros n).size = 64 * (n + 1) := by
  simp only [zeros, BitSeq.size, List.length_replicate]
  omega

/-- DATA of `64 * (n + 1)` bits, 2^67 for n = 2^61 - 1: a byte count of 2^64. -/
theorem witness_HefSerialize_wideData (n : Nat) (hn : n + 1 = 2 ^ 61) :
    ∃ s : State, s.fault = false ∧ s.RegsWf ∧ 2 ^ 64 ≤ s.data.size / 8 := by
  refine ⟨{ State.reset with data := zeros n }, rfl, ?_, ?_⟩
  · intro q
    refine ⟨?_, rfl⟩
    by_cases h : q.val = 258
    · have : ({ State.reset with data := zeros n } : State).reg q.val = zeros n := by
        simp [State.reg, h]
      rw [this]
      exact zeros_wf n
    · have : ({ State.reset with data := zeros n } : State).reg q.val = .empty := by
        have := q.isLt
        simp only [State.reg, State.reset]
        split_ifs <;> simp
      rw [this]
      decide
  · show 2 ^ 64 ≤ (zeros n).size / 8
    rw [zeros_size, hn]
    decide

theorem witness_HefSerialize_wideData_exists : ∃ n : Nat, n + 1 = 2 ^ 61 := ⟨2 ^ 61 - 1, by decide⟩

/-- V-A1: the first varint in its longer form, its last field complete, and a byte after it. -/
theorem witness_HefDeserializeReadsTheContainer :
    HeadFits (.varintTag1 3) [0x61, 0x62, 0x63] [1, 2, 2] [0xA0] (.varintTag0 1) ∧
    (2 : Byte).toNat ≤ 7 ∧ [(0xF5 : Byte), 0x00].length = (bitCount (.varintTag0 1) 2 + 7) / 8 ∧
    [0x01, 0x03, 0x00, 0x61, 0x62, 0x63, 0x01, 0x02, 0x02, 0xA0, 0x00, 0x01, 0x02, 0xF5, 0x00, 0xFF] =
      headBytes (.varintTag1 3) [0x61, 0x62, 0x63] [1, 2, 2] [0xA0] (.varintTag0 1) 2
        ++ [0xF5, 0x00] ++ [0xFF] ∧
    capAllows none ([(1 : Byte), 2, 2].map BitVec.toNat).sum = true ∧
    capAllows none (bitCount (.varintTag0 1) 2) = true := by
  refine ⟨⟨?_, ?_, ?_, ?_, ?_, ?_⟩, ?_, ?_, ?_, ?_, ?_⟩ <;> decide

/-- Each clause of the field order, on the bytes that reach it: V-E2, V-E7, V-E4; a total of 5 and a bit
count of 10 against BS_CAP; V-H1 cut inside field 4, V-E8, a missing field 6, V-E6 and V-E5. -/
theorem witness_HefDeserializeRejectsInFieldOrder :
    decodeVarint [0x04, 0x00] = .error .badTag ∧
    (decodeVarint [0x01, 0x01, 0x01] = .ok (.varintTag1 257, []) ∧
      256 < leNat (Instr.varintTag1 257).operandBytes) ∧
    (decodeVarint [0x00, 0x03, 0x61] = .ok (.varintTag0 3, [0x61]) ∧
      leNat (Instr.varintTag0 3).operandBytes = 3 ∧ [(0x61 : Byte)].length < 2 * 3) ∧
    (decodeVarint container = .ok (.varintTag0 3, container.drop 2) ∧
      container.drop 2 = [0x61, 0x62, 0x63] ++ [1, 2, 2] ++ container.drop 8 ∧ totalOf [1, 2, 2] = 5 ∧
      capAllows (some 4) 5 = false ∧ capAllows (some 5) 5 = true) ∧
    (([] : List Byte).length < (5 + 7) / 8 ∧ container.drop 8 = [0xA0] ++ container.drop 9 ∧
      [(0xA0 : Byte)].length = (5 + 7) / 8) ∧
    decodeVarint [0x09] = .error .badTag ∧
    decodeVarint (container.drop 9) = .ok (.varintTag0 1, container.drop 11) ∧
    decodeVarint [0x00, 0x01] = .ok (.varintTag0 1, []) ∧
    container.drop 11 = 0x02 :: container.drop 12 ∧ 7 < (8 : Byte).toNat ∧ (2 : Byte).toNat ≤ 7 ∧
    (bitCount (.varintTag0 1) 2 = 10 ∧ capAllows (some 9) 10 = false ∧
      capAllows (some 10) 10 = true ∧ [(0xF5 : Byte)].length < (10 + 7) / 8) := by
  refine ⟨rfl, ⟨rfl, by decide⟩, ⟨rfl, rfl, by decide⟩, ⟨rfl, rfl, rfl, rfl, rfl⟩,
    ⟨by decide, rfl, rfl⟩, rfl, rfl, rfl, rfl, by decide, by decide, rfl, rfl, rfl, by decide⟩

/-- `coded` with a symbol listed twice, and with CODES one bit short. -/
def twice : State := { coded with taSym := treeArray [0x61, 0x61, 0x63] }
def short : State := { coded with codes := ⟨[0xA000000000000000], 4⟩ }

/-- The symbols of the tree arrays are no part of the invariant. -/
theorem inv_symbols {s : State} (h : s.Inv) (v : Vector Byte 256) :
    State.Inv { s with taSym := v } := h

/-- CODES exactly as long as the lengths' sum; a symbol met again after entries that load; an entry for which
CODES is one bit short. -/
theorem witness_TableLoadCutsCodesIntoTheTable :
    (coded.Inv ∧ coded.fault = false ∧ (coded.taEntries.map Prod.fst).Nodup ∧
      (coded.taEntries.map fun e => e.2.toNat).sum = coded.codes.size) ∧
    (twice.Inv ∧ twice.fault = false ∧
      twice.taEntries = [(0x61, 1)] ++ ((0x61 : Byte), (2 : Byte)) :: [(0x63, 2)] ∧
      (0x61 : Byte) ∈ ([(0x61, 1)] : List (Byte × Byte)).map Prod.fst ∧ 1 ≤ twice.codes.size) ∧
    (short.Inv ∧ short.fault = false ∧
      short.taEntries = [(0x61, 1), (0x62, 2)] ++ ((0x63 : Byte), (2 : Byte)) :: [] ∧
      (0x63 : Byte) ∉ ([(0x61, 1), (0x62, 2)] : List (Byte × Byte)).map Prod.fst ∧
      1 + 2 ≤ short.codes.size ∧ short.codes.size < 1 + 2 + 2) :=
  ⟨⟨coded_inv, rfl, by decide +kernel, by decide +kernel⟩,
    ⟨inv_symbols coded_inv _, rfl, by decide +kernel, by decide, by decide +kernel⟩,
    inv_intro rfl rfl rfl (by decide +kernel) (by decide +kernel), rfl, by decide +kernel, by decide,
    by decide +kernel, by decide +kernel⟩

theorem witness_EncodeWritesTheContainerOfItsInput : coded.fault = false ∧ coded.caps.bsCap = none ∧
    coded.caps.blobCap = none ∧ coded.inBuf.length < 2 ^ 59 := ⟨rfl, rfl, rfl, by decide⟩

/-- Runs instructions one after another, each ending OK. -/
def runAll : List Instr → State → Option State
  | [], s => some s
  | i :: rest, s =>
    match nextOf (exec i s) with
    | none => none
    | some u => if u.status = .ok then runAll rest u else none

theorem runsTo_of (is : List Instr) : ∀ s : State, (runAll is s).isSome = true → ∃ t, RunsTo is s t := by
  induction is with
  | nil => intro s _; exact ⟨s, rfl⟩
  | cons i rest ih =>
    intro s h
    simp only [runAll] at h
    split at h
    · simp at h
    · rename_i u hu
      split_ifs at h with hok
      · obtain ⟨t, ht⟩ := ih u h
        exact ⟨t, u, nextOf_eq hu, hok, ht⟩
      · simp at h

/-- The status of the first instruction that does not end OK. -/
def failStatus : List Instr → State → Option Status
  | [], _ => none
  | i :: rest, s =>
    match nextOf (exec i s) with
    | none => none
    | some u => if u.status = .ok then failStatus rest u else some u.status

theorem failsWith_of {e : Status} (is : List Instr) :
    ∀ s : State, failStatus is s = some e → FailsWith is s e := by
  induction is with
  | nil => intro s h; simp [failStatus] at h
  | cons i rest ih =>
    intro s h
    simp only [failStatus] at h
    split at h
    · simp at h
    · rename_i u hu
      split_ifs at h with hok
      · exact ⟨u, nextOf_eq hu, .inr ⟨hok, ih u h⟩⟩
      · exact ⟨u, nextOf_eq hu, .inl ⟨hok, by simpa using h⟩⟩

/-- R48, R190, R193: the CUR that a DECODE produced stays readable after an ENCODE, here of an empty IN, whose
blob (V-S2) is shorter. -/
theorem test_encode_keeps_cur :
    shows .encodeInput { State.reset with cur := 14 } (fun t => (t.cur, t.blob)) =
      some (14, [0, 0, 0, 0, 0]) := by decide +kernel

/-- The stages of ENCODE and of DECODE all end OK; the last stage of ENCODE fails; the first, the second,
the third and the fourth stage of DECODE fails (V-E7, V-E10, V-E13, V-E14 of the spec's vectors). -/
theorem witness_Composes :
    (∃ t, RunsTo encodeStages { State.reset with inBuf := text } t) ∧
    (∃ t, RunsTo decodeStages { State.reset with blob := container } t) ∧
    FailsWith encodeStages { State.reset with inBuf := text, caps := ⟨none, none, none, some 0⟩ }
      (.callError .capacity) ∧
    FailsWith decodeStages { State.reset with blob := [1, 1, 1] } (.callError .alphabet) ∧
    FailsWith decodeStages { State.reset with blob := [0, 2, 0x61, 0x61, 1, 1, 0x40, 0, 0, 0] }
      (.fault .dupSymbol) ∧
    FailsWith decodeStages { State.reset with blob := [0, 2, 0x61, 0x62, 1, 1, 0, 0, 0, 0] }
      (.fault .tableConflict) ∧
    FailsWith decodeStages { State.reset with blob := [0, 1, 0x61, 1, 0, 0, 0, 1, 0x80] }
      (.fault .badStream) :=
  ⟨runsTo_of _ _ (by decide +kernel), runsTo_of _ _ (by decide +kernel),
    failsWith_of _ _ (by decide +kernel), failsWith_of _ _ (by decide +kernel),
    failsWith_of _ _ (by decide +kernel), failsWith_of _ _ (by decide +kernel),
    failsWith_of _ _ (by decide +kernel)⟩

/-- Two cores that differ in everything but IN and the capacities. -/
theorem witness_EncodeDependsOnItsInputOnly :
    let s := { State.reset with inBuf := text }
    s.fault = false ∧ coded.fault = false ∧ s.caps = coded.caps ∧ s.inBuf = coded.inBuf ∧
      (∃ t, exec .encodeInput s = .next t ∧ t.status = .ok) ∧
      ∃ t, exec .encodeInput coded = .next t ∧ t.status = .ok :=
  ⟨rfl, rfl, rfl, rfl, next_shows (by decide +kernel), next_shows (by decide +kernel)⟩

/-- The container of a = "1", b = "01" for the symbols a, b, and a byte after it; OUT exactly filled. -/
theorem witness_DecodeAppendsTheSymbols :
    let entries : List (Byte × List Bool) := [(0x62, [false, true]), (0x61, [true])]
    let syms : List Byte := [0x61, 0x62]
    capAllows (some 2) (0 + syms.length) = true ∧ (entries.map Prod.fst).Nodup ∧
      (∀ e ∈ entries, e.2.length ≤ 255) ∧
      entries.Pairwise (fun e e' => ¬ e.2 <+: e'.2 ∧ ¬ e'.2 <+: e.2) ∧
      (∀ y ∈ syms, y ∈ entries.map Prod.fst) ∧
      containerBytes (entries.map Prod.fst) (entries.map fun e => BitVec.ofNat 8 e.2.length)
        (entries.flatMap Prod.snd) (syms.flatMap (entryBits entries)) =
          .ok [0x00, 0x02, 0x62, 0x61, 0x02, 0x01, 0x60, 0x00, 0x00, 0x03, 0xA0] := by
  refine ⟨by decide, by decide, by decide, by decide, by decide, by rfl⟩

/-- Two cores that differ in the table, the tree arrays and IN. -/
theorem witness_DecodeDependsOnBlobAndOutOnly :
    ({ State.reset with blob := container } : State).fault = false ∧
      ({ coded with blob := container } : State).fault = false ∧ State.reset.caps = coded.caps ∧
      State.reset.outBuf = coded.outBuf ∧
      (∃ t, exec .decodeBlob { State.reset with blob := container } = .next t ∧ t.status = .ok) ∧
      ∃ t, exec .decodeBlob { coded with blob := container } = .next t ∧ t.status = .ok :=
  ⟨rfl, rfl, rfl, rfl, next_shows (by decide +kernel), next_shows (by decide +kernel)⟩

/-- Capacities exactly as large as the hypotheses ask. -/
theorem witness_EncodeThenDecodeGivesTheInputBack :
    let s := { State.reset with
      caps := ⟨some 7, some 9, some (9000 + 32 * 7), some (65280 + 255 * 7)⟩
      pending := [.loadIn text, .command [0x42], .loadOut [0x78, 0x79], .command [0x43]] }
    s.fault = false ∧ text.length < 2 ^ 59 ∧ capAllows s.caps.inCap text.length = true ∧
      capAllows s.caps.outCap ([(0x78 : Byte), 0x79].length + text.length) = true ∧
      capAllows s.caps.bsCap (65280 + 255 * text.length) = true ∧
      capAllows s.caps.blobCap (9000 + 32 * text.length) = true :=
  ⟨rfl, by decide, rfl, rfl, rfl, rfl⟩

end Sys2Proof.Tests
end

section
/-! SUPPORT. What `packWords` and `unpackWords` do to each bit, for words of any width: the bytes of R13 and the
blocks of R24 are the widths 8 and 64. O49 is settled at the end. -/

namespace Sys2Proof

theorem bitsToNat_concat (l : List Bool) (b : Bool) :
    bitsToNat (l ++ [b]) = 2 * bitsToNat l + b.toNat := by
  simp [bitsToNat]

theorem testBit_bitsToNat (l : List Bool) (i : Nat) :
    (bitsToNat l).testBit i = l.reverse.getD i false := by
  induction l using List.reverseRecOn generalizing i with
  | nil => simp [bitsToNat]
  | append_singleton l b ih =>
    have htail : (2 * bitsToNat l + b.toNat) / 2 = bitsToNat l := by
      have := b.toNat_lt; omega
    rw [bitsToNat_concat]
    cases i with
    | zero => cases b <;> simp [Nat.testBit_zero]
    | succ i => simpa [Nat.testBit_succ, htail] using ih i

theorem getMsbD_packWord {w i : Nat} (l : List Bool) (j : Nat) (hi : i < w) :
    (packWord w l j).getMsbD i = l.getD (w * j + i) false := by
  have hlt : w - 1 - i < w := by omega
  have hrev : w - 1 - (w - 1 - i) = i := by omega
  rw [packWord, BitVec.getMsbD_eq_getLsbD, BitVec.getLsbD_ofNat, testBit_bitsToNat]
  simp [hi, hlt, hrev]

@[simp] theorem length_packWords (w : Nat) (l : List Bool) (n : Nat) :
    (packWords w l n).length = n := by
  simp [packWords]

theorem getD_packWords {w j n : Nat} (l : List Bool) (hj : j < n) :
    (packWords w l n).getD j 0 = packWord w l j := by
  simp [packWords, hj]

theorem getMsbD_packWords {w k n : Nat} (l : List Bool) (hk : k < w * n) :
    ((packWords w l n).getD (k / w) 0).getMsbD (k % w) = l.getD k false := by
  have hw : 0 < w := Nat.pos_of_mul_pos_right (Nat.zero_lt_of_lt hk)
  rw [getD_packWords l (Nat.div_lt_of_lt_mul hk), getMsbD_packWord l _ (Nat.mod_lt k hw),
    Nat.div_add_mod]

@[simp] theorem length_unpackWords {w : Nat} (words : List (BitVec w)) (n : Nat) :
    (unpackWords words n).length = n := by
  simp [unpackWords]

theorem getElem?_unpackWords {w k n : Nat} (words : List (BitVec w)) (hk : k < n) :
    (unpackWords words n)[k]? = some ((words.getD (k / w) 0).getMsbD (k % w)) := by
  simp [unpackWords, hk]

theorem unpackWords_packWords {w n : Nat} (l : List Bool) (hn : l.length ≤ w * n) :
    unpackWords (packWords w l n) l.length = l := by
  refine List.ext_getElem? fun k => ?_
  rcases Nat.lt_or_ge k l.length with hk | hk
  · rw [getElem?_unpackWords _ hk, getMsbD_packWords l (Nat.lt_of_lt_of_le hk hn),
      List.getD_eq_getElem l false hk, List.getElem?_eq_getElem hk]
  · rw [List.getElem?_eq_none hk, List.getElem?_eq_none (by simpa using hk)]

theorem le_eight_mul_ceil8 (n : Nat) : n ≤ 8 * ceil8 n := by
  unfold ceil8; omega

@[simp] theorem length_pack (l : List Bool) : (pack l).length = ceil8 l.length :=
  length_packWords 8 l _

theorem unpack_pack (l : List Bool) : unpack (pack l) l.length = l :=
  unpackWords_packWords l (le_eight_mul_ceil8 l.length)

/-- Position `7 - (i mod 8)` of R13 counts from the least significant bit. -/
theorem byte_getMsbD_mod (b : Byte) (i : Nat) : b.getMsbD (i % 8) = b.getLsbD (7 - i % 8) := by
  simp [BitVec.getMsbD_eq_getLsbD, Nat.mod_lt]

/-- Settles O49: `pack` and `unpack` are `packWords` and `unpackWords` at width 8. -/
theorem packIsMostSignificantBitFirst : Obligations.PackIsMostSignificantBitFirst := by
  unfold Obligations.PackIsMostSignificantBitFirst
  refine ⟨fun l => ⟨length_pack l, fun i hi => ?_, unpack_pack l⟩,
    fun bytes n _ => ⟨length_unpackWords bytes n, fun i hi => ?_⟩⟩
  · rw [length_pack] at hi
    rw [← byte_getMsbD_mod]
    exact getMsbD_packWords l hi
  · rw [← byte_getMsbD_mod]
    exact getElem?_unpackWords bytes hi

end Sys2Proof
end

section
/-! SUPPORT. What a bit-sequence value means bit by bit (spec/10_state.md R21 to R24): a block list is its bits, and
a well-formed value is determined by its own. O21 is settled at the end. -/

namespace Sys2Proof

/-- Bit `k` of a block list, the most significant bit of block 0 first, `false` past the end. `BitSeq.at` reads it. -/
def blockBit (blocks : List Word) (k : Nat) : Bool := (blocks.getD (k / 64) 0).getMsbD (k % 64)

theorem BitSeq.at_eq_blockBit (v : BitSeq) (k : Nat) : v.at k = blockBit v.blocks k := rfl

theorem blockBit_of_length_le {blocks : List Word} {k : Nat} (h : 64 * blocks.length ≤ k) :
    blockBit blocks k = false := by
  have : blocks.length ≤ k / 64 := by omega
  simp [blockBit, List.getElem?_eq_none this]

/-- A block list of one block: `getMsbD` is `false` past the width by itself. -/
theorem blockBit_singleton (w : Word) (k : Nat) : blockBit [w] k = w.getMsbD k := by
  rcases Nat.lt_or_ge k 64 with hk | hk
  · simp [blockBit, Nat.div_eq_of_lt hk, Nat.mod_eq_of_lt hk]
  · rw [blockBit_of_length_le (by simpa using hk), BitVec.getMsbD_of_ge _ _ hk]

theorem blockBit_append (a b : List Word) (k : Nat) :
    blockBit (a ++ b) k =
      if k < 64 * a.length then blockBit a k else blockBit b (k - 64 * a.length) := by
  split_ifs with hk
  · have : k / 64 < a.length := by omega
    simp [blockBit, List.getElem?_append_left this]
  · have hle : a.length ≤ k / 64 := by omega
    have hdiv : (k - 64 * a.length) / 64 = k / 64 - a.length := by omega
    have hmod : (k - 64 * a.length) % 64 = k % 64 := by omega
    simp [blockBit, List.getElem?_append_right hle, hdiv, hmod]

/-- Block lists of one length are equal when all their bits are. -/
theorem eq_of_blockBit_eq {a b : List Word} (hlen : a.length = b.length)
    (h : ∀ k, blockBit a k = blockBit b k) : a = b := by
  refine List.ext_getElem hlen fun j ha hb => BitVec.eq_of_getMsbD_eq fun i hi => ?_
  have hdiv : (64 * j + i) / 64 = j := by omega
  have hmod : (64 * j + i) % 64 = i := by omega
  simpa [blockBit, hdiv, hmod, ha, hb] using h (64 * j + i)

/-- The last block, the one `fill` is about, split off. -/
theorem dropLast_append_getLastD {blocks : List Word} (h : blocks ≠ []) :
    blocks.dropLast ++ [blocks.getLastD 0] = blocks := by
  rw [List.getLastD_eq_getLast?, List.getLast?_eq_some_getLast h]
  exact List.dropLast_append_getLast h

/-- Bits from the last block on are the last block's. -/
theorem blockBit_last {blocks : List Word} (h : blocks ≠ []) (i : Nat) :
    blockBit blocks (64 * (blocks.length - 1) + i) = (blocks.getLastD 0).getMsbD i := by
  conv_lhs => rw [← dropLast_append_getLastD h]
  simp [blockBit_append, blockBit_singleton]

/-- I4 of R22 bit by bit: the bits of the last block past the fill are 0. -/
theorem toNat_mod_two_pow_eq_zero_iff (w : Word) (fill : Nat) :
    w.toNat % 2 ^ (64 - fill) = 0 ↔ ∀ i, fill ≤ i → w.getMsbD i = false := by
  constructor
  · intro h i hi
    rcases Nat.lt_or_ge i 64 with hw | hw
    · have hbit := Nat.testBit_mod_two_pow w.toNat (64 - fill) (63 - i)
      simpa [h, hw, BitVec.getMsbD_eq_getLsbD, BitVec.getLsbD,
        show 63 - i < 64 - fill by omega] using hbit
    · exact BitVec.getMsbD_of_ge _ _ hw
  · intro h
    refine Nat.eq_of_testBit_eq fun j => ?_
    rw [Nat.testBit_mod_two_pow, Nat.zero_testBit]
    by_cases hj : j < 64 - fill
    · have := h (63 - j) (by omega)
      simp only [BitVec.getMsbD_eq_getLsbD, BitVec.getLsbD] at this
      simpa [hj, show 63 - j < 64 by omega, show 63 - (63 - j) = j by omega] using this
    · simp [hj]

theorem BitSeq.size_eq (v : BitSeq) : v.size = 64 * (v.blocks.length - 1) + v.fill := by
  rw [BitSeq.size, Nat.mul_comm]

/-- Well-formedness (R22) bit by bit: nothing is set past the size. -/
theorem BitSeq.wf_iff_blockBit (v : BitSeq) :
    v.Wf ↔ v.blocks ≠ [] ∧ v.fill ≤ 64 ∧ (v.fill = 0 → v.blocks.length = 1) ∧
      ∀ k, v.size ≤ k → blockBit v.blocks k = false := by
  refine and_congr_right fun hne => and_congr_right fun _ => and_congr_right fun _ => ?_
  rw [BitSeq.lastBlock, toNat_mod_two_pow_eq_zero_iff]
  constructor
  · intro h k hk
    obtain ⟨i, rfl⟩ : ∃ i, k = 64 * (v.blocks.length - 1) + i :=
      ⟨k - 64 * (v.blocks.length - 1), by rw [v.size_eq] at hk; omega⟩
    rw [blockBit_last hne]
    exact h i (by rw [v.size_eq] at hk; omega)
  · intro h i hi
    rw [← blockBit_last hne]
    exact h _ (by rw [v.size_eq]; omega)

@[simp] theorem BitSeq.length_bits (v : BitSeq) : v.bits.length = v.size :=
  length_unpackWords v.blocks v.size

theorem BitSeq.getElem?_bits (v : BitSeq) {k : Nat} (h : k < v.size) : v.bits[k]? = some (v.at k) :=
  getElem?_unpackWords v.blocks h

/-- Of a well-formed value the blocks hold the bits and nothing else. -/
theorem BitSeq.Wf.getD_bits {v : BitSeq} (h : v.Wf) (k : Nat) :
    v.bits.getD k false = blockBit v.blocks k := by
  obtain ⟨-, -, -, hzero⟩ := v.wf_iff_blockBit.1 h
  rcases Nat.lt_or_ge k v.size with hk | hk
  · simp [v.getElem?_bits hk, BitSeq.at_eq_blockBit]
  · simp [hzero k hk, List.getElem?_eq_none (show v.bits.length ≤ k by simpa using hk)]

/-! `mk` -/

theorem length_le_blockCount (n : Nat) : n ≤ 64 * blockCount n := by
  unfold blockCount; omega

@[simp] theorem BitSeq.length_blocks_ofBits (l : List Bool) :
    (BitSeq.ofBits l).blocks.length = blockCount l.length :=
  length_packWords 64 l _

theorem BitSeq.fill_ofBits (l : List Bool) :
    (BitSeq.ofBits l).fill = l.length - (blockCount l.length - 1) * 64 := rfl

@[simp] theorem BitSeq.size_ofBits (l : List Bool) : (BitSeq.ofBits l).size = l.length := by
  rw [BitSeq.size, BitSeq.length_blocks_ofBits, BitSeq.fill_ofBits, blockCount]
  omega

theorem BitSeq.blockBit_ofBits (l : List Bool) (k : Nat) :
    blockBit (BitSeq.ofBits l).blocks k = l.getD k false := by
  rcases Nat.lt_or_ge k (64 * blockCount l.length) with hk | hk
  · exact getMsbD_packWords l hk
  · have hlen : l.length ≤ k := (length_le_blockCount l.length).trans hk
    rw [blockBit_of_length_le (by simpa using hk), List.getD_eq_default _ _ hlen]

/-- `mk(l)` is the value with the block count and fill of `l` whose blocks hold `l` and nothing else. -/
theorem BitSeq.eq_ofBits {v : BitSeq} {l : List Bool} (hlen : v.blocks.length = blockCount l.length)
    (hfill : v.fill = l.length - (blockCount l.length - 1) * 64)
    (hbits : ∀ k, blockBit v.blocks k = l.getD k false) : v = .ofBits l := by
  have hblocks : v.blocks = (BitSeq.ofBits l).blocks :=
    eq_of_blockBit_eq (by simpa using hlen) fun k => by rw [hbits, BitSeq.blockBit_ofBits]
  cases v
  simp_all [BitSeq.ofBits]

/-- The same with the size in place of count and fill: `fill` is 0 only in a single block. -/
theorem BitSeq.eq_ofBits_of_size {v : BitSeq} {l : List Bool} (hne : v.blocks ≠ [])
    (hfill : v.fill ≤ 64) (hzero : v.fill = 0 → v.blocks.length = 1) (hsize : v.size = l.length)
    (hbits : ∀ k, blockBit v.blocks k = l.getD k false) : v = .ofBits l := by
  have hpos : 0 < v.blocks.length := List.length_pos_iff.2 hne
  have hcount : v.blocks.length = blockCount l.length := by
    rw [← hsize, BitSeq.size, blockCount]
    omega
  refine BitSeq.eq_ofBits hcount ?_ hbits
  rw [← hcount, ← hsize, BitSeq.size]
  omega

theorem BitSeq.wf_ofBits (l : List Bool) : (BitSeq.ofBits l).Wf := by
  rw [BitSeq.wf_iff_blockBit]
  have hlen := BitSeq.length_blocks_ofBits l
  refine ⟨List.ne_nil_of_length_pos ?_, ?_, ?_, fun k hk => ?_⟩
  · rw [hlen, blockCount]; omega
  · rw [BitSeq.fill_ofBits, blockCount]; omega
  · rw [hlen, BitSeq.fill_ofBits, blockCount]; omega
  · rw [BitSeq.blockBit_ofBits, List.getD_eq_default _ _ (by simpa using hk)]

/-- A well-formed value is `mk` of its bits (R24). -/
theorem BitSeq.Wf.eq_ofBits_bits {v : BitSeq} (h : v.Wf) : v = .ofBits v.bits := by
  obtain ⟨hne, hfill, hzero, -⟩ := v.wf_iff_blockBit.1 h
  exact BitSeq.eq_ofBits_of_size hne hfill hzero (by simp) fun k => (h.getD_bits k).symm

@[simp] theorem BitSeq.bits_ofBits (l : List Bool) : (BitSeq.ofBits l).bits = l := by
  rw [BitSeq.bits, BitSeq.size_ofBits]
  exact unpackWords_packWords l (length_le_blockCount l.length)

/-- Well-formed values are equal exactly when their bits are (R24). -/
theorem BitSeq.Wf.bits_inj {v w : BitSeq} (hv : v.Wf) (hw : w.Wf) : v.bits = w.bits ↔ v = w :=
  ⟨fun h => by rw [hv.eq_ofBits_bits, h, ← hw.eq_ofBits_bits], congrArg BitSeq.bits⟩

/-- Settles O21: a value is well-formed exactly when it is `mk` of its bits, and the blocks of `mk` are read bit by
bit. -/
theorem mkIsTheOnlyWellFormedValue : Obligations.MkIsTheOnlyWellFormedValue := by
  unfold Obligations.MkIsTheOnlyWellFormedValue
  refine ⟨fun l => ⟨BitSeq.wf_ofBits l, BitSeq.bits_ofBits l, ?_, BitSeq.length_blocks_ofBits l,
    BitSeq.length_blocks_ofBits l ▸ BitSeq.fill_ofBits l, ?_⟩, by decide, fun v w hv hw => hv.bits_inj hw⟩
  · intro v hv hbits
    rw [hv.eq_ofBits_bits, hbits]
  · intro j i hj hi
    have hdiv : (64 * j + i) / 64 = j := by omega
    have hmod : (64 * j + i) % 64 = i := by omega
    have hbit := BitSeq.blockBit_ofBits l (64 * j + i)
    rw [blockBit, hdiv, hmod, BitVec.getMsbD_eq_getLsbD] at hbit
    simpa [hi] using hbit

end Sys2Proof
end

section
/-! SUPPORT. The block-level algorithms (spec/40_bitsequence.md R115, R117, R120, R124) give `mk` of the abstract
result (R111): each is read bit by bit. So all of them keep well-formedness (R22), and their sizes add up. -/

namespace Sys2Proof

theorem blockBit_cons (b : Word) (rest : List Word) (k : Nat) :
    blockBit (b :: rest) k = if k < 64 then b.getMsbD k else blockBit rest (k - 64) := by
  rw [← List.singleton_append, blockBit_append, blockBit_singleton, List.length_singleton]

theorem getD_append_bits (l m : List Bool) (k : Nat) :
    (l ++ m).getD k false = if k < l.length then l.getD k false else m.getD (k - l.length) false := by
  split_ifs with h
  · exact List.getD_append l m false k h
  · exact List.getD_append_right l m false k (Nat.le_of_not_lt h)

theorem length_orLast {blocks : List Word} (h : blocks ≠ []) (w : Word) :
    (orLast blocks w).length = blocks.length := by
  have := List.length_pos_iff.2 h
  simp only [orLast, List.length_append, List.length_dropLast, List.length_singleton]
  omega

theorem orLast_ne_nil (blocks : List Word) (w : Word) : orLast blocks w ≠ [] := by
  simp [orLast]

/-- What replacing the last block does to each bit. -/
theorem blockBit_dropLast_append {blocks : List Word} (h : blocks ≠ []) (w : Word) (k : Nat) :
    blockBit (blocks.dropLast ++ [w]) k =
      if k < 64 * (blocks.length - 1) then blockBit blocks k
      else w.getMsbD (k - 64 * (blocks.length - 1)) := by
  conv_rhs => rw [← dropLast_append_getLastD h]
  simp only [blockBit_append, blockBit_singleton, List.length_dropLast, List.length_append,
    List.length_singleton, Nat.add_sub_cancel]
  split_ifs <;> rfl

/-- `orLast` sets bits of the last block and leaves the others (R115). -/
theorem blockBit_orLast {blocks : List Word} (h : blocks ≠ []) (w : Word) (k : Nat) :
    blockBit (orLast blocks w) k =
      (blockBit blocks k ||
        (decide (64 * (blocks.length - 1) ≤ k) && w.getMsbD (k - 64 * (blocks.length - 1)))) := by
  rw [orLast, blockBit_dropLast_append h]
  split_ifs with hk
  · simp [Nat.not_le.2 hk]
  · obtain ⟨i, rfl⟩ : ∃ i, k = 64 * (blocks.length - 1) + i :=
      ⟨k - 64 * (blocks.length - 1), by omega⟩
    simp [blockBit_last h]

theorem BitSeq.Wf.eq_ofBits_nil {v : BitSeq} (h : v.Wf) (hsize : v.size = 0) : v = .ofBits [] := by
  rw [h.eq_ofBits_bits, List.length_eq_zero_iff.1 (v.length_bits.trans hsize)]

/-! A full last block opened: a receiver with room, of the same bits -/

/-- What the pushes need of their receiver: a block with room, and nothing set from the size on. -/
structure BitSeq.Open (v : BitSeq) : Prop where
  blocks_ne_nil : v.blocks ≠ []
  fill_lt : v.fill < 64
  blockBit_eq_false : ∀ k, v.size ≤ k → blockBit v.blocks k = false

theorem BitSeq.Wf.openBlock {v : BitSeq} (h : v.Wf) : v.openBlock.Open ∧
    v.openBlock.size = v.size ∧ ∀ k, blockBit v.openBlock.blocks k = blockBit v.blocks k := by
  obtain ⟨hne, hfill, -, hzero⟩ := v.wf_iff_blockBit.1 h
  have hpos := List.length_pos_iff.2 hne
  unfold BitSeq.openBlock
  split_ifs with hfull
  · have hsize : BitSeq.size ⟨v.blocks ++ [0], 0⟩ = v.size := by
      simp only [BitSeq.size, List.length_append, List.length_singleton]
      omega
    have hbits : ∀ k, blockBit (v.blocks ++ [0]) k = blockBit v.blocks k := by
      intro k
      rw [blockBit_append, blockBit_singleton]
      split_ifs with hk
      · rfl
      · rw [blockBit_of_length_le (Nat.le_of_not_lt hk)]
        simp [BitVec.getMsbD]
    refine ⟨⟨by simp, by simp, fun k hk => ?_⟩, hsize, hbits⟩
    rw [hbits, hzero k (hsize ▸ hk)]
  · exact ⟨⟨hne, by omega, hzero⟩, rfl, fun _ => rfl⟩

/-- Setting bits of the last block past the fill keeps the bits below the size. -/
theorem BitSeq.Open.blockBit_orLast_old {v : BitSeq} (h : v.Open) {w : Word}
    (hw : ∀ i, i < v.fill → w.getMsbD i = false) {k : Nat} (hk : k < v.size) :
    blockBit (orLast v.blocks w) k = blockBit v.blocks k := by
  rw [blockBit_orLast h.blocks_ne_nil]
  by_cases hlast : 64 * (v.blocks.length - 1) ≤ k
  · simp [hw (k - 64 * (v.blocks.length - 1)) (by rw [v.size_eq] at hk; omega)]
  · simp [hlast]

/-- Setting bits of the last block past the fill puts them right after the old ones. -/
theorem BitSeq.Open.blockBit_orLast_new {v : BitSeq} (h : v.Open) (w : Word) (j : Nat) :
    blockBit (orLast v.blocks w) (v.size + j) = w.getMsbD (v.fill + j) := by
  rw [blockBit_orLast h.blocks_ne_nil, h.blockBit_eq_false _ (Nat.le_add_right _ _), v.size_eq]
  simp [Nat.add_assoc]

/-- Blocks that hold the bits of `v` and, from its size on, `new` are those of `mk` of both. -/
theorem BitSeq.Wf.eq_ofBits_append {v u : BitSeq} {new : List Bool} (h : v.Wf) (hne : u.blocks ≠ [])
    (hfill : u.fill ≤ 64) (hzero : u.fill = 0 → u.blocks.length = 1)
    (hsize : u.size = v.size + new.length)
    (hold : ∀ k, k < v.size → blockBit u.blocks k = blockBit v.blocks k)
    (hnew : ∀ j, blockBit u.blocks (v.size + j) = new.getD j false) :
    u = .ofBits (v.bits ++ new) := by
  refine BitSeq.eq_ofBits_of_size hne hfill hzero (by simpa using hsize) fun k => ?_
  rw [getD_append_bits, BitSeq.length_bits]
  split_ifs with hk
  · rw [hold k hk, h.getD_bits]
  · obtain ⟨j, rfl⟩ := Nat.exists_eq_add_of_le (Nat.le_of_not_lt hk)
    rw [hnew, Nat.add_sub_cancel_left]

/-! push_bit -/

theorem getMsbD_ofBool_shiftLeft (b : Bool) {f : Nat} (hf : f < 64) (i : Nat) :
    ((BitVec.ofBool b).setWidth 64 <<< (63 - f) : Word).getMsbD i = (decide (i = f) && b) := by
  by_cases h : i = f
  · subst h
    simp [BitVec.getMsbD_eq_getLsbD, hf]
    omega
  · rcases Nat.lt_or_ge i 64 with hi | hi
    · simp [BitVec.getMsbD_eq_getLsbD, hi, h]
      omega
    · simp [BitVec.getMsbD_of_ge _ _ hi, h]

/-- R111 for push_bit. -/
theorem BitSeq.Wf.pushBit_eq {v : BitSeq} (h : v.Wf) (b : Bool) :
    v.pushBit b = .ofBits (v.bits ++ [b]) := by
  obtain ⟨hopen, hsize, hbits⟩ := h.openBlock
  have hfill := hopen.fill_lt
  refine h.eq_ofBits_append (orLast_ne_nil _ _) hfill (by simp [BitSeq.pushBit]) ?_
    (fun k hk => ?_) fun j => ?_
  · rw [← hsize]
    simp [BitSeq.pushBit, BitSeq.size, length_orLast hopen.blocks_ne_nil]
    omega
  · rw [BitSeq.pushBit, hopen.blockBit_orLast_old _ (hsize ▸ hk), hbits]
    intro i hi
    simp [getMsbD_ofBool_shiftLeft b hfill, Nat.ne_of_lt hi]
  · rw [BitSeq.pushBit, ← hsize, hopen.blockBit_orLast_new, getMsbD_ofBool_shiftLeft b hfill]
    cases j <;> simp

/-! push_byte -/

/-- The bits that push_byte appends: the top `n` of the byte, bit 7 first (R117). -/
def pushedBits (y : Byte) (n : Nat) : List Bool := (List.range n).map fun i => y.getLsbD (7 - i)

@[simp] theorem length_pushedBits (y : Byte) (n : Nat) : (pushedBits y n).length = n := by
  simp [pushedBits]

/-- The top `n` bits of a byte stand at the low end of the word `x` of R117. -/
theorem getMsbD_topBits (y : Byte) {n : Nat} (hn : n ≤ 8) (i : Nat) :
    (BitVec.ofNat 64 (topBits y n)).getMsbD i =
      if i < 64 - n then false else (pushedBits y n).getD (i - (64 - n)) false := by
  rw [BitVec.getMsbD_eq_getLsbD, BitVec.getLsbD_ofNat, topBits, Nat.testBit_div_two_pow]
  split_ifs with hlow
  · simp [Nat.testBit_lt_two_pow (x := y.toNat) (i := 63 - i + (8 - n))
      (y.isLt.trans_le (Nat.pow_le_pow_right (by omega) (by omega)))]
  · rcases Nat.lt_or_ge i 64 with hi | hi
    · have : i - (64 - n) < n := by omega
      simp [pushedBits, hi, this, BitVec.getLsbD, show 63 - i < 64 by omega,
        show 63 - i + (8 - n) = 7 - (i - (64 - n)) by omega]
    · simp [pushedBits, Nat.not_lt.2 hi, show n ≤ i - (64 - n) by omega]

theorem ofNat_mod_shiftLeft (x : Word) {m : Nat} (hm : m ≤ 64) :
    BitVec.ofNat 64 (x.toNat % 2 ^ m) <<< (64 - m) = x <<< (64 - m) := by
  refine BitVec.eq_of_getLsbD_eq fun i hi => ?_
  rw [BitVec.getLsbD_shiftLeft, BitVec.getLsbD_shiftLeft, BitVec.getLsbD_ofNat, Nat.testBit_mod_two_pow]
  by_cases hlow : i < 64 - m
  · simp [hlow]
  · simp [BitVec.getLsbD, show i - (64 - m) < m by omega, show i - (64 - m) < 64 by omega]

/-- R111 for push_byte: within the last block, or over its end into a new one. -/
theorem BitSeq.Wf.pushByte_eq {v : BitSeq} (h : v.Wf) (y : Byte) {n : Nat} (hn : n ≤ 8) :
    v.pushByte y n = .ofBits (v.bits ++ pushedBits y n) := by
  rcases Nat.eq_zero_or_pos n with rfl | hpos
  · simpa [BitSeq.pushByte, pushedBits] using h.eq_ofBits_bits
  obtain ⟨hopen, hsize, hbits⟩ := h.openBlock
  have hfill := hopen.fill_lt
  have hblocks := List.length_pos_iff.2 hopen.blocks_ne_nil
  have hsize' := hsize
  rw [BitSeq.size] at hsize'
  rw [BitSeq.pushByte, if_neg (Nat.ne_of_gt hpos)]
  dsimp only
  split_ifs with hfit
  · refine h.eq_ofBits_append (orLast_ne_nil _ _) (by dsimp only; omega) (by dsimp only; omega) ?_
      (fun k hk => ?_) fun j => ?_
    · simp only [BitSeq.size, length_orLast hopen.blocks_ne_nil, length_pushedBits] at hsize ⊢
      omega
    · rw [hopen.blockBit_orLast_old _ (hsize ▸ hk), hbits]
      intro i hi
      rw [BitVec.getMsbD_shiftLeft, getMsbD_topBits y hn, if_pos (by omega)]
    · rw [← hsize, hopen.blockBit_orLast_new, BitVec.getMsbD_shiftLeft, getMsbD_topBits y hn,
        if_neg (by omega)]
      congr 1; omega
  · refine h.eq_ofBits_append (by simp) (by dsimp only; omega) (by dsimp only; omega) ?_
      (fun k hk => ?_) fun j => ?_
    · simp only [BitSeq.size, length_orLast hopen.blocks_ne_nil, length_pushedBits,
        List.length_append, List.length_singleton] at hsize ⊢
      omega
    · rw [blockBit_append, length_orLast hopen.blocks_ne_nil, if_pos (by omega),
        hopen.blockBit_orLast_old _ (hsize ▸ hk), hbits]
      intro i hi
      rw [BitVec.getMsbD_ushiftRight, getMsbD_topBits y hn]
      simp
      omega
    · rw [ofNat_mod_shiftLeft _ (by omega), blockBit_append, length_orLast hopen.blocks_ne_nil]
      split_ifs with hj
      · rw [← hsize, hopen.blockBit_orLast_new, BitVec.getMsbD_ushiftRight, getMsbD_topBits y hn,
          if_neg (by omega), decide_eq_true (by omega), decide_eq_false (by omega)]
        simp only [Bool.true_and, Bool.not_false]
        congr 1; omega
      · rw [blockBit_singleton, BitVec.getMsbD_shiftLeft, getMsbD_topBits y hn, if_neg (by omega)]
        congr 1; omega

/-! pop -/

theorem getD_dropLast (l : List Bool) (k : Nat) :
    l.dropLast.getD k false = if k < l.length - 1 then l.getD k false else false := by
  rw [List.getD_eq_getElem?_getD, List.getElem?_dropLast]
  split_ifs with h
  · rfl
  · rfl

theorem blockBit_dropLast {blocks : List Word} (h : blocks ≠ []) (k : Nat) :
    blockBit blocks.dropLast k = if k < 64 * (blocks.length - 1) then blockBit blocks k else false := by
  split_ifs with hk
  · conv_rhs => rw [← dropLast_append_getLastD h, blockBit_append, List.length_dropLast, if_pos hk]
  · rw [blockBit_of_length_le (by simpa using hk)]

theorem getMsbD_and_not_one_shiftLeft (w : Word) {f : Nat} (hf : f < 64) (i : Nat) :
    (w &&& ~~~((1 : Word) <<< (63 - f))).getMsbD i = if i = f then false else w.getMsbD i := by
  have hone := getMsbD_ofBool_shiftLeft true hf i
  rw [show (BitVec.ofBool true).setWidth 64 = (1 : Word) from rfl] at hone
  rw [BitVec.getMsbD_and, BitVec.getMsbD_not, hone]
  rcases Nat.lt_or_ge i 64 with hi | hi
  · by_cases h : i = f <;> simp [h, hi, hf]
  · simp [BitVec.getMsbD_of_ge _ _ hi]

/-- R111 for pop; the empty value is left as it is. -/
theorem BitSeq.Wf.pop_eq {v : BitSeq} (h : v.Wf) : v.pop = .ofBits v.bits.dropLast := by
  obtain ⟨hne, hfill, hzero, hpast⟩ := v.wf_iff_blockBit.1 h
  have hblocks := List.length_pos_iff.2 hne
  have hsize := v.size_eq
  have hbit : ∀ k, v.bits.dropLast.getD k false =
      if k < v.size - 1 then blockBit v.blocks k else false := fun k => by
    rw [getD_dropLast, BitSeq.length_bits, h.getD_bits]
  by_cases hempty : v.size = 0
  · rw [h.eq_ofBits_nil hempty]
    decide
  rw [BitSeq.pop]
  split_ifs with hdrop
  · refine BitSeq.eq_ofBits_of_size (List.ne_nil_of_length_pos (by simpa using hdrop.2)) (by simp)
      (by simp) ?_ fun k => ?_
    · simp only [BitSeq.size, List.length_dropLast, BitSeq.length_bits]
      omega
    · rw [hbit, blockBit_dropLast hne, show v.size - 1 = 64 * (v.blocks.length - 1) by omega]
  · refine BitSeq.eq_ofBits_of_size (by simp) (by dsimp only; omega) ?_ ?_ fun k => ?_
    · simp only [List.length_append, List.length_dropLast, List.length_singleton]
      omega
    · simp only [BitSeq.size, List.length_dropLast, List.length_append, List.length_singleton,
        BitSeq.length_bits]
      omega
    · rw [hbit, blockBit_dropLast_append hne, BitSeq.lastBlock,
        getMsbD_and_not_one_shiftLeft _ (by omega)]
      rcases Nat.lt_or_ge k (64 * (v.blocks.length - 1)) with hk | hk
      · rw [if_pos hk, if_pos (by omega)]
      · obtain ⟨i, rfl⟩ := Nat.exists_eq_add_of_le hk
        rw [if_neg (by omega), Nat.add_sub_cancel_left, ← blockBit_last hne]
        split_ifs with h1 h2 h2
        · omega
        · rfl
        · rfl
        · exact hpast _ (by omega)

/-! push_seq -/

/-- One turn of the loop of R120: the receiver's bits, then those of the block, over two blocks. -/
theorem BitSeq.Open.blockBit_merge {v : BitSeq} (h : v.Open) (hfill : 0 < v.fill) (b : Word) (k : Nat) :
    blockBit (orLast v.blocks (b >>> v.fill) ++ [b <<< (64 - v.fill)]) k =
      if k < v.size then blockBit v.blocks k else b.getMsbD (k - v.size) := by
  have hlow : ∀ i, i < v.fill → (b >>> v.fill).getMsbD i = false := fun i hi => by
    simp [BitVec.getMsbD_ushiftRight, hi]
  have hlt := h.fill_lt
  have hsize := v.size_eq
  have hblocks := List.length_pos_iff.2 h.blocks_ne_nil
  rw [blockBit_append, length_orLast h.blocks_ne_nil]
  split_ifs with h1 h2 h2
  · exact h.blockBit_orLast_old hlow h2
  · obtain ⟨j, rfl⟩ := Nat.exists_eq_add_of_le (Nat.le_of_not_lt h2)
    rw [h.blockBit_orLast_new, BitVec.getMsbD_ushiftRight]
    simp
    omega
  · omega
  · rw [blockBit_singleton, BitVec.getMsbD_shiftLeft]
    congr 1; omega

/-- After a turn of the loop the receiver is a block longer, with the same fill. -/
theorem BitSeq.Open.merge {v : BitSeq} (h : v.Open) (hfill : 0 < v.fill) (b : Word) :
    BitSeq.Open ⟨orLast v.blocks (b >>> v.fill) ++ [b <<< (64 - v.fill)], v.fill⟩ := by
  refine ⟨by simp, h.fill_lt, fun k hk => ?_⟩
  have hblocks := List.length_pos_iff.2 h.blocks_ne_nil
  have hsize := v.size_eq
  simp only [BitSeq.size, length_orLast h.blocks_ne_nil, List.length_append, List.length_singleton] at hk
  rw [h.blockBit_merge hfill, if_neg (by omega), BitVec.getMsbD_of_ge _ _ (by omega)]

theorem mergeBlocks_singleton (f oFill : Nat) (blocks : List Word) (b : Word) :
    mergeBlocks f oFill blocks [b] =
      if oFill > 64 - f then orLast blocks (b >>> f) ++ [b <<< (64 - f)] else orLast blocks (b >>> f) := by
  simp [mergeBlocks]

theorem mergeBlocks_cons {f : Nat} (hf : 0 < f) (oFill : Nat) (blocks : List Word) (b : Word)
    {rest : List Word} (hrest : rest ≠ []) :
    mergeBlocks f oFill blocks (b :: rest) =
      mergeBlocks f oFill (orLast blocks (b >>> f) ++ [b <<< (64 - f)]) rest := by
  simp only [mergeBlocks, if_neg hrest]
  rw [if_pos (by omega)]

/-- The loop of R120 appends the operand's bits to the receiver's. -/
theorem blockBit_mergeBlocks {f oFill : Nat} (hf : 0 < f) (os : List Word) (hos : os ≠ [])
    (hlast : ∀ i, oFill ≤ i → (os.getLastD 0).getMsbD i = false) (blocks : List Word)
    (h : BitSeq.Open ⟨blocks, f⟩) (k : Nat) :
    blockBit (mergeBlocks f oFill blocks os) k =
      if k < BitSeq.size ⟨blocks, f⟩ then blockBit blocks k
      else blockBit os (k - BitSeq.size ⟨blocks, f⟩) := by
  have hlt : f < 64 := h.fill_lt
  induction os generalizing blocks k with
  | nil => exact absurd rfl hos
  | cons b rest ih =>
    by_cases hrest : rest = []
    · subst hrest
      rw [mergeBlocks_singleton, blockBit_singleton]
      split_ifs with hover hk hk
      · rw [h.blockBit_merge hf, if_pos hk]
      · rw [h.blockBit_merge hf, if_neg hk]
      · exact h.blockBit_orLast_old (fun i hi => by
          dsimp only at hi; simp [BitVec.getMsbD_ushiftRight, hi]) hk
      · obtain ⟨j, rfl⟩ := Nat.exists_eq_add_of_le (Nat.le_of_not_lt hk)
        rw [h.blockBit_orLast_new, BitVec.getMsbD_ushiftRight, Nat.add_sub_cancel_left]
        rcases Nat.lt_or_ge j (64 - f) with hj | hj
        · simp
          omega
        · have : b.getMsbD j = false := hlast j (by omega)
          simp [this]
    · have hlast' : ∀ i, oFill ≤ i → (rest.getLastD 0).getMsbD i = false := by
        obtain ⟨c, tail, rfl⟩ := List.exists_cons_of_ne_nil hrest
        simpa using hlast
      have hsize : BitSeq.size ⟨orLast blocks (b >>> f) ++ [b <<< (64 - f)], f⟩ =
          BitSeq.size ⟨blocks, f⟩ + 64 := by
        have hblocks := List.length_pos_iff.2 h.blocks_ne_nil
        simp only [BitSeq.size, length_orLast h.blocks_ne_nil, List.length_append,
          List.length_singleton] at hblocks ⊢
        omega
      rw [mergeBlocks_cons hf _ _ _ hrest, ih hrest hlast' _ (h.merge hf b), h.blockBit_merge hf, hsize]
      rcases Nat.lt_or_ge k (BitSeq.size ⟨blocks, f⟩) with hk | hk
      · rw [if_pos (hk.trans_le (Nat.le_add_right _ _)), if_pos hk, if_pos hk]
      · obtain ⟨j, rfl⟩ := Nat.exists_eq_add_of_le hk
        simp [blockBit_cons, Nat.add_sub_add_left]

theorem length_mergeBlocks {f oFill : Nat} (hf : 0 < f) (os : List Word) (hos : os ≠ [])
    (blocks : List Word) (hne : blocks ≠ []) :
    (mergeBlocks f oFill blocks os).length =
      blocks.length + (os.length - 1) + if oFill > 64 - f then 1 else 0 := by
  induction os generalizing blocks with
  | nil => exact absurd rfl hos
  | cons b rest ih =>
    by_cases hrest : rest = []
    · subst hrest
      rw [mergeBlocks_singleton]
      split_ifs <;> simp [length_orLast hne]
    · have := List.length_pos_iff.2 hrest
      rw [mergeBlocks_cons hf _ _ _ hrest, ih hrest _ (by simp)]
      simp only [List.length_append, length_orLast hne, List.length_cons, List.length_nil]
      omega

/-- R111 for push_seq: an empty operand, an empty receiver, a receiver without room in its last block, and the loop
of R120. -/
theorem BitSeq.Wf.pushSeq_eq {v o : BitSeq} (hv : v.Wf) (ho : o.Wf) :
    v.pushSeq o = .ofBits (v.bits ++ o.bits) := by
  obtain ⟨hvne, hvfill, hvzero, hvpast⟩ := v.wf_iff_blockBit.1 hv
  obtain ⟨hone, hofill, hozero, hopast⟩ := o.wf_iff_blockBit.1 ho
  have hvlen := List.length_pos_iff.2 hvne
  have holen := List.length_pos_iff.2 hone
  have hvsize := v.size_eq
  have hosize := o.size_eq
  unfold BitSeq.pushSeq
  split_ifs with hoempty hvempty hfull
  · rw [ho.eq_ofBits_nil hoempty]
    simpa using hv.eq_ofBits_bits
  · rw [hv.eq_ofBits_nil hvempty]
    simpa using ho.eq_ofBits_bits
  · refine hv.eq_ofBits_append (by simp [hvne]) hofill (by simp; omega) ?_ (fun k hk => ?_) fun j => ?_
    · rw [BitSeq.length_bits, hvsize, hosize, BitSeq.size, List.length_append]
      dsimp only
      omega
    · rw [blockBit_append, if_pos (by omega)]
    · rw [blockBit_append, if_neg (by omega), ho.getD_bits]
      congr 1; omega
  · have hopen : BitSeq.Open ⟨v.blocks, v.fill⟩ := ⟨hvne, by dsimp only; omega, hvpast⟩
    have hpos : 0 < v.fill := by omega
    have hlast : ∀ i, o.fill ≤ i → (o.blocks.getLastD 0).getMsbD i = false := fun i hi => by
      rw [← blockBit_last hone]; exact hopast _ (by omega)
    have hlen := length_mergeBlocks hpos o.blocks hone v.blocks hvne (oFill := o.fill)
    have hbits := blockBit_mergeBlocks hpos o.blocks hone hlast v.blocks hopen
    refine hv.eq_ofBits_append (List.ne_nil_of_length_pos (by dsimp only; omega))
      (by dsimp only; omega) (by dsimp only; omega) ?_ (fun k hk => ?_) fun j => ?_
    · rw [BitSeq.size, hlen, BitSeq.length_bits]
      dsimp only
      split_ifs <;> omega
    · rw [hbits, if_pos hk]
    · rw [hbits, if_neg (by simp), ho.getD_bits]
      congr 1; simp

end Sys2Proof
end

section
/-! SUPPORT. What every instruction can do, said once: its rule and what a raise leaves are given as two functions, so
that `exec` is one `runCommand` (R227), and what either may write is one structure. O14, O15 and O18 follow. -/

namespace Sys2Proof

open Machine

/-- A stage as the rule of a command without result bytes (R84). -/
def withoutResult (stage : State → Res State) (s : State) : Res (State × List Byte) :=
  (stage s).map fun t => (t, [])

/-- The rule of each instruction: what it computes from a state, with its result bytes. -/
def Instr.rule : Instr → State → Res (State × List Byte)
  | .bsClear r => withoutResult fun s => .ok (s.setReg r.toNat .empty)
  | .bsCopy r o => withoutResult fun s => .ok (s.setReg r.toNat (s.reg o.toNat))
  | .bsPushBit r bit => withoutResult fun s => do
      let v ← pushBitCap s.caps (s.reg r.toNat) (bitOperand bit)
      .ok (s.setReg r.toNat v)
  | .bsPushByte r byte nbits => withoutResult fun s => do
      ensure (decide (nbits.toNat ≤ 8)) (.fault .numBits)
      let v ← pushByteCap s.caps (s.reg r.toNat) byte nbits.toNat
      .ok (s.setReg r.toNat v)
  | .bsPushSeq r o => withoutResult fun s => do
      let v ← pushSeqCap s.caps (s.reg r.toNat) (s.reg o.toNat)
      .ok (s.setReg r.toNat v)
  | .bsPop r => withoutResult fun s => do
      ensure (decide (0 < (s.reg r.toNat).size)) (.fault .popEmpty)
      .ok (s.setReg r.toNat (s.reg r.toNat).pop)
  | .bsAt r index => fun s => do
      ensure (decide (index.toNat < (s.reg r.toNat).size)) (.fault .index)
      .ok (s, [if (s.reg r.toNat).at index.toNat then 0x01 else 0x00])
  | .bsSize r => fun s => .ok (s, read64 (s.reg r.toNat).size)
  | .bsIter r => fun s => .ok (s, read64 (s.reg r.toNat).size ++ pack (s.reg r.toNat).bits)
  | .freqCount => withoutResult freqCountStage
  | .treeBuild => withoutResult treeBuildStage
  | .tableDerive => withoutResult tableDeriveStage
  | .dataEncode => withoutResult dataEncodeStage
  | .tableLoad => withoutResult tableLoadStage
  | .treeInsert sym r => withoutResult fun s => treeInsertStage sym (s.reg r.toNat) s
  | .treeFromTable => withoutResult treeFromTableStage
  | .treeDecode => withoutResult treeDecodeStage
  | .treeInit => withoutResult treeInitStage
  | .hefSerialize => withoutResult hefSerializeStage
  | .hefDeserialize => withoutResult hefDeserializeStage
  | .encodeInput => withoutResult encodeStage
  | .decodeBlob => withoutResult decodeStage
  | .csrRead n => fun s =>
      match s.csr n with
      | none => .error (.raise (.fault .illegalCmd))
      | some v => .ok (s, read64 v)
  | .varintTag0 v => passVarint 1 v.toNat
  | .varintTag1 v => passVarint 2 v.toNat
  | .varintTag2 v => passVarint 4 v.toNat
  | .varintTag3 v => passVarint 8 v.toNat

/-- What a raise of each instruction leaves of the state before it (R229). -/
def Instr.unspecified : Instr → State → State
  | .tableDerive => State.afterTableDerive
  | .dataEncode => State.afterDataEncode
  | .tableLoad => State.afterTableLoad
  | .treeFromTable => State.afterTreeFromTable
  | .hefSerialize => State.afterHefSerialize
  | .hefDeserialize => State.afterHefDeserialize
  | .encodeInput => State.afterEncode
  | .decodeBlob => State.afterDecode
  | .varintTag0 _ | .varintTag1 _ | .varintTag2 _ | .varintTag3 _ => State.afterReader
  | _ => id

namespace Machine

/-- Every instruction is its rule with the common prologue and epilogue (R227). -/
theorem exec_eq_runCommand (i : Instr) (s : State) : exec i s = runCommand i i.rule i.unspecified s := by
  cases i <;> rfl

/-- A latched core refuses every instruction (R226). -/
theorem exec_of_fault {i : Instr} {s : State} (h : s.fault = true) : exec i s = .next s.refuse := by
  rw [exec_eq_runCommand, runCommand_refused h]

/-- Everything an instruction that answers a next state can have done (R227). -/
theorem exec_cases {i : Instr} {s t : State} (h : exec i s = .next t) :
    (s.fault = true ∧ t = s.refuse) ∨
      (s.fault = false ∧ i.problem ≠ none ∧ t = s.raise (.fault .illegalCmd)) ∨
      (s.fault = false ∧ i.problem = none ∧ ∃ u l, i.rule s = .ok (u, l) ∧ t = u.finish l) ∨
      (s.fault = false ∧ i.problem = none ∧
        ∃ r, i.rule s = .error (.raise r) ∧ t = (i.unspecified s).raise r) :=
  runCommand_cases (exec_eq_runCommand i s ▸ h)

/-- An instruction whose rule reaches its end (R227). -/
theorem exec_ok {i : Instr} {s t : State} {l : List Byte} (hf : s.fault = false) (hi : i.WellFormed)
    (h : i.rule s = .ok (t, l)) : exec i s = .next (t.finish l) :=
  (exec_eq_runCommand i s).trans (runCommand_ok hf hi h)

/-- An instruction whose rule raises (R224, R225, R229). -/
theorem exec_raise {i : Instr} {s : State} {r : Raise} (hf : s.fault = false) (hi : i.WellFormed)
    (h : i.rule s = .error (.raise r)) : exec i s = .next ((i.unspecified s).raise r) :=
  (exec_eq_runCommand i s).trans (runCommand_raise hf hi h)

theorem withoutResult_eq_ok {stage : State → Res State} {s t : State} {l : List Byte} :
    withoutResult stage s = .ok (t, l) ↔ stage s = .ok t ∧ l = [] := by
  unfold withoutResult
  cases stage s <;> simp [Except.map, eq_comm]

theorem withoutResult_eq_raise {stage : State → Res State} {s : State} {r : Raise} :
    withoutResult stage s = .error (.raise r) ↔ stage s = .error (.raise r) := by
  unfold withoutResult
  cases stage s <;> simp [Except.map]

/-! ### Responses -/

theorem State.raise_response (s : State) (r : Raise) :
    (s.raise r).response = [(s.raise r).status.byte] := by
  cases r <;> rfl

/-- Result bytes come from the four commands of R84 alone, and the reader. -/
theorem result_eq_nil {i : Instr} {s t : State} {l : List Byte} (hi : Claims.hasResult i = false)
    (h : i.rule s = .ok (t, l)) : l = [] := by
  cases i
  case bsAt | bsSize | bsIter | csrRead | varintTag0 | varintTag1 | varintTag2 | varintTag3 => cases hi
  all_goals
    rw [Instr.rule, withoutResult_eq_ok] at h
    exact h.2

end Machine

/-- Settles O14: a refusal and a raise answer their status byte, and a command that reached its end OK and its
result. -/
theorem responseCarriesTheStatus : Obligations.ResponseCarriesTheStatus := by
  unfold Obligations.ResponseCarriesTheStatus
  intro i s t h
  obtain ⟨-, rfl⟩ | ⟨-, -, rfl⟩ | ⟨-, -, u, l, hrule, rfl⟩ | ⟨-, -, r, -, rfl⟩ := exec_cases h
  · exact ⟨rfl, fun _ => rfl, fun _ => rfl⟩
  · exact ⟨rfl, fun _ => rfl, fun _ => rfl⟩
  · exact ⟨rfl, fun hne => absurd rfl hne, fun hi => by rw [result_eq_nil hi hrule]; rfl⟩
  · rw [State.raise_response]
    exact ⟨rfl, fun _ => rfl, fun _ => rfl⟩

namespace Machine

open Claims

/-! ### Registers by number -/

/-- A register is one field of the state: equal fields, equal registers (R25). -/
theorem State.reg_congr {s t : State} {q : Nat} (hcode : q < 256 → t.code = s.code)
    (hpath : q = 256 → t.path = s.path) (hcodes : q = 257 → t.codes = s.codes)
    (hdata : q = 258 → t.data = s.data) (htmp : 258 < q → t.tmp = s.tmp) : t.reg q = s.reg q := by
  unfold State.reg
  split_ifs with h0 h1 h2 h3 h4
  · rw [hcode h0]
  · exact hpath h1
  · exact hcodes h2
  · exact hdata h3
  · rw [htmp (by omega)]
  · rfl

/-- A number that names no register writes nothing (R86 d). -/
theorem State.setReg_of_ge (s : State) {r : Nat} (v : BitSeq) (h : 263 ≤ r) : s.setReg r v = s := by
  rw [State.setReg, dif_neg (by omega), if_neg (by omega), if_neg (by omega), if_neg (by omega),
    dif_neg (by omega)]

/-- A number that names no register reads as the empty value (R86 d). -/
theorem State.reg_of_ge (s : State) {r : Nat} (h : 263 ≤ r) : s.reg r = .empty := by
  rw [State.reg, dif_neg (by omega), if_neg (by omega), if_neg (by omega), if_neg (by omega),
    dif_neg (by omega)]

/-- Writing one register changes no other, a number that names none included (R27, R86 d). -/
theorem State.reg_setReg_of_ne (s : State) (r q : Nat) (v : BitSeq) (h : q ≠ r) :
    (s.setReg r v).reg q = s.reg q := by
  rcases Nat.lt_or_ge r 263 with hr | hr
  · exact State.reg_setReg_ne s r q v hr h
  · rw [State.setReg_of_ge s v hr]

/-! ### What each instruction may write -/

/-- `t` is `s` but for what instruction `i` is named to write, flags and response aside: a field that an
instruction leaves alone is filled in by its default. -/
structure Writes (i : Instr) (s t : State) : Prop where
  inBuf : t.inBuf = s.inBuf := by rfl
  caps : t.caps = s.caps := by rfl
  pending : t.pending = s.pending := by rfl
  fault : t.fault = s.fault := by rfl
  faultCause : t.faultCause = s.faultCause := by rfl
  outAppended : ∃ l, t.outBuf = s.outBuf ++ l := by exact ⟨[], (List.append_nil _).symm⟩
  outBuf : writesOut i = false → t.outBuf = s.outBuf := by exact fun _ => rfl
  blob : writesBlob i = false → t.blob = s.blob := by exact fun _ => rfl
  cur : writesCur i = false → t.cur = s.cur := by exact fun _ => rfl
  curWithin : t.cur ≠ s.cur → t.cur ≤ t.blob.length := by exact fun h => absurd rfl h
  freq : writesFreq i = false → t.freq = s.freq := by exact fun _ => rfl
  sorter : writesSorter i = false → t.sort = s.sort ∧ t.seq = s.seq := by exact fun _ => ⟨rfl, rfl⟩
  arena : writesArena i = false → t.arena = s.arena := by exact fun _ => rfl
  valid : writesValid i = false → t.codeValid = s.codeValid := by exact fun _ => rfl
  treeArrays : writesTreeArrays i = false → t.taN = s.taN ∧ t.taSym = s.taSym ∧ t.taLen = s.taLen := by
    exact fun _ => ⟨rfl, rfl, rfl⟩
  reg : ∀ q, q < 263 → writesReg i q = false → t.reg q = s.reg q := by exact fun _ _ _ => rfl

/-- An instruction that changed nothing but the flags. -/
theorem Writes.refl (i : Instr) (s : State) : Writes i s s := {}

/-- An instruction that writes one register. -/
theorem Writes.setReg {i : Instr} {s : State} {r : Nat} {v : BitSeq}
    (hi : ∀ q, writesReg i q = decide (q = r)) : Writes i s (s.setReg r v) := by
  rw [State.setReg_frame]
  exact { reg := fun q _ hq => by
            rw [hi, decide_eq_false_iff_not] at hq
            exact (State.setReg_frame s r v ▸ State.reg_setReg_of_ne s r q v hq) }

/-- The registers outside the code table are single fields; the code table is written whole or left. -/
theorem reg_eq_of_fields {i : Instr} {s t : State}
    (hcode : t.code = s.code ∨ ∀ q, q < 256 → writesReg i q = true)
    (hpath : t.path = s.path ∨ writesReg i 256 = true)
    (hcodes : t.codes = s.codes ∨ writesReg i 257 = true)
    (hdata : t.data = s.data ∨ writesReg i 258 = true) (htmp : t.tmp = s.tmp) :
    ∀ q, q < 263 → writesReg i q = false → t.reg q = s.reg q := by
  intro q _ hq
  refine State.reg_congr (fun h => ?_) (fun h => ?_) (fun h => ?_) (fun h => ?_) fun _ => htmp
  · exact hcode.resolve_right fun hw => by rw [hw q h] at hq; cases hq
  · exact hpath.resolve_right fun hw => by rw [h, hw] at hq; cases hq
  · exact hcodes.resolve_right fun hw => by rw [h, hw] at hq; cases hq
  · exact hdata.resolve_right fun hw => by rw [h, hw] at hq; cases hq

/-! The code table lies within the registers of the four instructions that write it. -/

theorem writesReg_tableDerive {q : Nat} (h : q < 256) : writesReg .tableDerive q = true :=
  decide_eq_true (Nat.le_of_lt h)

theorem writesReg_tableLoad {q : Nat} (h : q < 256) : writesReg .tableLoad q = true :=
  decide_eq_true h

theorem writesReg_encode {q : Nat} (h : q < 256) : writesReg .encodeInput q = true :=
  decide_eq_true (by omega)

theorem writesReg_decode {q : Nat} (h : q < 256) : writesReg .decodeBlob q = true :=
  Bool.and_eq_true_iff.2 ⟨decide_eq_true (by omega), decide_eq_true (Nat.ne_of_lt h)⟩

/-- What the reader transaction may have written. -/
theorem Writes.passVarint {i : Instr} {k v : Nat} {s t : State} {l : List Byte}
    (hi : writesCur i = true) (h : Machine.passVarint k v s = .ok (t, l)) : Writes i s t := by
  obtain ⟨hcur, rfl, -⟩ := passVarint_cases h
  exact {
    cur := fun hn => by simp [hi] at hn
    curWithin := fun _ => hcur }

/-- DECODE appends to OUT in its last stage alone (R192). -/
theorem decodeStage_outBuf {s t : State} (h : decodeStage s = .ok t) : ∃ l, t.outBuf = s.outBuf ++ l := by
  obtain ⟨a, ha, h⟩ := res_bind_ok.1 h
  obtain ⟨b, hb, h⟩ := res_bind_ok.1 h
  obtain ⟨c, hc, h⟩ := res_bind_ok.1 h
  obtain ⟨out, -, ht⟩ := treeDecodeStage_frame h
  refine ⟨out, ?_⟩
  rw [ht, treeFromTableStage_frame hc, tableLoadStage_frame hb, hefDeserializeStage_frame ha]

/-- What a command that reached its end may have written: the frame of its stage. -/
theorem Writes.rule {i : Instr} {s t : State} {l : List Byte} (h : i.rule s = .ok (t, l)) :
    Writes i s t := by
  cases i <;> simp only [Instr.rule, withoutResult_eq_ok] at h
  case bsClear | bsCopy =>
    cases h.1
    exact .setReg fun _ => rfl
  case bsPushBit | bsPushSeq =>
    obtain ⟨v, -, h⟩ := res_bind_ok.1 h.1
    cases h
    exact .setReg fun _ => rfl
  case bsPushByte =>
    obtain ⟨-, -, h⟩ := res_bind_ok.1 h.1
    obtain ⟨v, -, h⟩ := res_bind_ok.1 h
    cases h
    exact .setReg fun _ => rfl
  case bsPop =>
    obtain ⟨-, -, h⟩ := res_bind_ok.1 h.1
    cases h
    exact .setReg fun _ => rfl
  case bsAt =>
    obtain ⟨-, -, h⟩ := res_bind_ok.1 h
    cases h
    exact .refl _ s
  case bsSize | bsIter =>
    cases h
    exact .refl _ s
  case csrRead =>
    split at h <;> cases h
    exact .refl _ s
  case freqCount =>
    rw [freqCountStage_frame h.1]
    exact { freq := nofun }
  case treeBuild =>
    rw [treeBuildStage_frame h.1]
    exact { arena := nofun, sorter := nofun }
  case tableDerive =>
    rw [tableDeriveStage_frame h.1]
    exact {
      valid := nofun
      reg := reg_eq_of_fields (.inr fun _ => writesReg_tableDerive) (.inr rfl) (.inl rfl) (.inl rfl) rfl }
  case dataEncode =>
    rw [dataEncodeStage_frame h.1]
    exact { reg := reg_eq_of_fields (.inl rfl) (.inl rfl) (.inl rfl) (.inr rfl) rfl }
  case tableLoad =>
    rw [tableLoadStage_frame h.1]
    exact {
      valid := nofun
      reg := reg_eq_of_fields (.inr fun _ => writesReg_tableLoad) (.inl rfl) (.inl rfl) (.inl rfl) rfl }
  case treeInsert =>
    rw [treeInsertStage_frame h.1]
    exact { arena := nofun }
  case treeFromTable =>
    rw [treeFromTableStage_frame h.1]
    exact { arena := nofun }
  case treeDecode =>
    obtain ⟨out, -, ht⟩ := treeDecodeStage_frame h.1
    rw [ht]
    exact { outAppended := ⟨out, rfl⟩, outBuf := nofun }
  case treeInit =>
    rw [treeInitStage_frame h.1]
    exact { arena := nofun }
  case hefSerialize =>
    rw [hefSerializeStage_frame h.1]
    exact {
      blob := nofun
      treeArrays := nofun
      reg := reg_eq_of_fields (.inl rfl) (.inl rfl) (.inr rfl) (.inl rfl) rfl }
  case hefDeserialize =>
    have hcur := hefDeserializeStage_cur_le h.1
    rw [hefDeserializeStage_frame h.1] at hcur ⊢
    exact {
      cur := nofun
      curWithin := fun _ => hcur
      treeArrays := nofun
      reg := reg_eq_of_fields (.inl rfl) (.inl rfl) (.inr rfl) (.inr rfl) rfl }
  case encodeInput =>
    rw [encodeStage_frame h.1]
    exact {
      blob := nofun
      freq := nofun
      sorter := nofun
      arena := nofun
      valid := nofun
      treeArrays := nofun
      reg := reg_eq_of_fields (.inr fun _ => writesReg_encode) (.inr rfl) (.inr rfl) (.inr rfl) rfl }
  case decodeBlob =>
    have hcur := decodeStage_cur_le h.1
    have hout := decodeStage_outBuf h.1
    rw [decodeStage_frame h.1] at hcur hout ⊢
    exact {
      outAppended := hout
      outBuf := nofun
      cur := nofun
      curWithin := fun _ => hcur
      arena := nofun
      valid := nofun
      treeArrays := nofun
      reg := reg_eq_of_fields (.inr fun _ => writesReg_decode) (.inl rfl) (.inr rfl) (.inr rfl) rfl }
  case varintTag0 | varintTag1 | varintTag2 | varintTag3 => exact .passVarint rfl h

/-- One write after another, the later one leaving BLOB. -/
theorem Writes.trans {i : Instr} {s t u : State} (h : Writes i s t) (h' : Writes i t u)
    (hblob : u.blob = t.blob := by simp) : Writes i s u where
  inBuf := h'.inBuf.trans h.inBuf
  caps := h'.caps.trans h.caps
  pending := h'.pending.trans h.pending
  fault := h'.fault.trans h.fault
  faultCause := h'.faultCause.trans h.faultCause
  outAppended := by
    obtain ⟨l, hl⟩ := h.outAppended
    obtain ⟨l', hl'⟩ := h'.outAppended
    exact ⟨l ++ l', by rw [hl', hl, List.append_assoc]⟩
  outBuf hi := (h'.outBuf hi).trans (h.outBuf hi)
  blob hi := (h'.blob hi).trans (h.blob hi)
  cur hi := (h'.cur hi).trans (h.cur hi)
  curWithin hne := by
    by_cases hcur : u.cur = t.cur
    · rw [hcur, hblob]
      exact h.curWithin (hcur ▸ hne)
    · exact h'.curWithin hcur
  freq hi := (h'.freq hi).trans (h.freq hi)
  sorter hi := ⟨(h'.sorter hi).1.trans (h.sorter hi).1, (h'.sorter hi).2.trans (h.sorter hi).2⟩
  arena hi := (h'.arena hi).trans (h.arena hi)
  valid hi := (h'.valid hi).trans (h.valid hi)
  treeArrays hi := by
    obtain ⟨hn, hsym, hlen⟩ := h.treeArrays hi
    obtain ⟨hn', hsym', hlen'⟩ := h'.treeArrays hi
    exact ⟨hn'.trans hn, hsym'.trans hsym, hlen'.trans hlen⟩
  reg q hq hi := (h'.reg q hq hi).trans (h.reg q hq hi)

section Draws

variable {i : Instr} {s t : State} (h : Writes i s t)
include h

theorem Writes.drawTable (hvalid : writesValid i = true) (hreg : ∀ q, q < 256 → writesReg i q = true) :
    Writes i s t.drawTable := by
  refine h.trans ?_
  unfold State.drawTable
  generalize (Vector.ofFn fun k : Fin 256 => drawSeq t.caps t.draws k.val) = code
  generalize (Vector.ofFn fun k : Fin 256 => Config.freeValid t.draws k.val) = valid
  exact {
    valid := fun hn => by simp [hvalid] at hn
    reg := reg_eq_of_fields (.inr hreg) (.inl rfl) (.inl rfl) (.inl rfl) rfl }

theorem Writes.drawPath (hreg : writesReg i 256 = true) : Writes i s t.drawPath :=
  h.trans { reg := reg_eq_of_fields (.inl rfl) (.inr hreg) (.inl rfl) (.inl rfl) rfl }

theorem Writes.drawCodes (hreg : writesReg i 257 = true) : Writes i s t.drawCodes :=
  h.trans { reg := reg_eq_of_fields (.inl rfl) (.inl rfl) (.inr hreg) (.inl rfl) rfl }

theorem Writes.drawData (hreg : writesReg i 258 = true) : Writes i s t.drawData :=
  h.trans { reg := reg_eq_of_fields (.inl rfl) (.inl rfl) (.inl rfl) (.inr hreg) rfl }

theorem Writes.drawTa (hta : writesTreeArrays i = true) : Writes i s t.drawTa := by
  refine h.trans ?_
  unfold State.drawTa
  generalize (Vector.ofFn fun k : Fin 256 => Config.freeTaSym t.draws k.val) = sym
  generalize (Vector.ofFn fun k : Fin 256 => Config.freeTaLen t.draws k.val) = len
  exact { treeArrays := fun hn => by simp [hta] at hn }

theorem Writes.drawCur (hcur : writesCur i = true) : Writes i s t.drawCur :=
  h.trans { cur := fun hn => by simp [hcur] at hn, curWithin := fun _ => Nat.min_le_left _ _ }

theorem Writes.drawFreq (hfreq : writesFreq i = true) : Writes i s t.drawFreq := by
  refine h.trans ?_
  unfold State.drawFreq
  generalize (Vector.ofFn fun k : Fin 256 => (Config.freeFreq t.draws k.val).toNat) = freq
  exact { freq := fun hn => by simp [hfreq] at hn }

theorem Writes.drawSort (hsort : writesSorter i = true) : Writes i s t.drawSort :=
  h.trans { sorter := fun hn => by simp [hsort] at hn }

theorem Writes.drawArena (harena : writesArena i = true) : Writes i s t.drawArena :=
  h.trans { arena := fun hn => by simp [harena] at hn }

theorem Writes.drawn : Writes i s t.drawn := h.trans {}

end Draws

/-- What a raise may have written: R229 leaves unspecified only what the instruction writes. -/
theorem Writes.unspecified (i : Instr) (s : State) : Writes i s (i.unspecified s) := by
  have hrefl := Writes.refl i s
  cases i
  case tableDerive =>
    exact ((hrefl.drawTable rfl fun _ => writesReg_tableDerive).drawPath rfl).drawn
  case dataEncode => exact (hrefl.drawData rfl).drawn
  case tableLoad => exact (hrefl.drawTable rfl fun _ => writesReg_tableLoad).drawn
  case treeFromTable => exact (hrefl.drawArena rfl).drawn
  case hefSerialize => exact ((hrefl.drawTa rfl).drawCodes rfl).drawn
  case hefDeserialize =>
    exact ((((hrefl.drawCur rfl).drawTa rfl).drawCodes rfl).drawData rfl).drawn
  case encodeInput =>
    have htree := ((hrefl.drawFreq rfl).drawSort rfl).drawArena rfl
    have htable := (htree.drawTable rfl fun _ => writesReg_encode).drawPath rfl
    exact (((htable.drawData rfl).drawTa rfl).drawCodes rfl).drawn
  case decodeBlob =>
    have hread := (((hrefl.drawCur rfl).drawTa rfl).drawCodes rfl).drawData rfl
    exact ((hread.drawTable rfl fun _ => writesReg_decode).drawArena rfl).drawn
  case varintTag0 | varintTag1 | varintTag2 | varintTag3 => exact (hrefl.drawCur rfl).drawn
  all_goals exact hrefl

/-- Nothing but the flags and the response differs. -/
abbrev State.SameButFlags (s t : State) : Prop :=
  t = { s with status := t.status, fault := t.fault, faultCause := t.faultCause, response := t.response }

/-- Whatever an instruction ends with, the flags aside the state is one it may have written. -/
theorem exec_writes {i : Instr} {s t : State} (h : exec i s = .next t) :
    ∃ u, Writes i s u ∧ u.SameButFlags t := by
  obtain ⟨-, rfl⟩ | ⟨-, -, rfl⟩ | ⟨-, -, u, l, hrule, rfl⟩ | ⟨-, -, r, -, rfl⟩ := exec_cases h
  · exact ⟨s, .refl i s, rfl⟩
  · exact ⟨s, .refl i s, rfl⟩
  · exact ⟨u, .rule hrule, rfl⟩
  · exact ⟨i.unspecified s, .unspecified i s, by cases r <;> rfl⟩

end Machine

namespace Machine

/-- Everything the core can do for one request (R47, R86, R227, log 4). -/
inductive Served (s : State) : Request → State → Prop where
  | loadIn (l : List Byte) (h : capAllows s.caps.inCap l.length = true) :
    Served s (.loadIn l) { s with inBuf := l, response := [] }
  | loadOut (l : List Byte) (h : capAllows s.caps.outCap l.length = true) :
    Served s (.loadOut l) { s with outBuf := l, response := [] }
  | loadBlob (l : List Byte) (h : capAllows s.caps.blobCap l.length = true) :
    Served s (.loadBlob l) { s with blob := l, response := [] }
  | readIn : Served s .readIn { s with response := s.inBuf }
  | readOut : Served s .readOut { s with response := s.outBuf }
  | readBlob : Served s .readBlob { s with response := s.blob }
  | reset : Served s .reset s.hostReset
  | command (p : List Byte) (i : Instr) (t : State) (hdecode : decodeCommand p = .ok i)
    (h : exec i s = .next t) : Served s (.command p) t
  | illegalPacket (p : List Byte) (e : Reject) (hdecode : decodeCommand p = .error e) :
    Served s (.command p) s.illegalPacket
  | varint (i : Instr) (tail : List Byte) (t : State)
    (hdecode : decodeVarint (s.blob.drop s.cur) = .ok (i, tail)) (h : exec i s = .next t) :
    Served s .readVarint t
  | badVarint (e : CallError) (hdecode : decodeVarint (s.blob.drop s.cur) = .error e) :
    Served s .readVarint (if s.fault then s.refuse else s.afterReader.raise (.call e))

theorem serve_cases {q : Request} {s t : State} (h : serve q s = .next t) : Served s q t := by
  cases q with
  | loadIn l | loadOut l | loadBlob l =>
    rw [serve] at h
    split_ifs at h with hcap
    cases h
    constructor
    exact hcap
  | readIn | readOut | readBlob | reset =>
    cases h
    constructor
  | command p =>
    rw [serve, serveCommand] at h
    split at h
    · next i hdecode => exact .command p i t hdecode h
    · next e hdecode =>
      cases h
      exact .illegalPacket p e hdecode
  | readVarint =>
    rw [serve, serveVarint] at h
    split at h
    · next i tail hdecode => exact .varint i tail t hdecode h
    · next e hdecode =>
      cases h
      exact .badVarint e hdecode

/-- A step serves the oldest request, or leaves the state as it is with none (R252). -/
theorem step_cases {s t : State} (h : step s = .next t) :
    (s.pending = [] ∧ t = s) ∨
      ∃ q rest, s.pending = q :: rest ∧ Served { s with pending := rest } q t := by
  unfold step at h
  split at h
  · next hp =>
    cases h
    exact .inl ⟨hp, rfl⟩
  · next q rest hp => exact .inr ⟨q, rest, hp, serve_cases h⟩

/-- A latched core keeps its latch through every request but HostReset (R226, R47). -/
theorem Served.keeps_latch {s t : State} {q : Request} (h : Served s q t) (hf : s.fault = true)
    (hq : q ≠ .reset) : t.fault = true ∧ t.faultCause = s.faultCause := by
  cases h with
  | loadIn | loadOut | loadBlob | readIn | readOut | readBlob => exact ⟨hf, rfl⟩
  | reset => exact absurd rfl hq
  | command _ _ _ _ h | varint _ _ _ _ h =>
    rw [exec_of_fault hf] at h
    cases h
    exact ⟨hf, rfl⟩
  | illegalPacket =>
    rw [State.illegalPacket, if_pos hf]
    exact ⟨hf, rfl⟩
  | badVarint =>
    rw [if_pos hf]
    exact ⟨hf, rfl⟩

end Machine

/-- A raise over an unlatched state latches it exactly when it is a fault, and records that fault (R224, R225). -/
theorem Machine.raise_latch {s : State} (hf : s.fault = false) (hc : s.faultCause = none) (r : Raise) :
    ((s.raise r).fault = true ↔ ∃ f, (s.raise r).status = .fault f) ∧
      (∀ f, (s.raise r).status = .fault f → (s.raise r).faultCause = some f) ∧
      ((s.raise r).fault = false → (s.raise r).faultCause = none) := by
  cases r <;> simp [State.raise, State.flagCallError, State.flagFault, hf, hc]

/-- Settles O15: the rules and the draws of R229 leave the latch, so only a raise can set it. -/
theorem latchNamesItsCauseAndOnlyResetClearsIt : Obligations.LatchNamesItsCauseAndOnlyResetClearsIt := by
  unfold Obligations.LatchNamesItsCauseAndOnlyResetClearsIt
  constructor
  · intro i s t hf hc h
    obtain ⟨hf', -⟩ | ⟨-, -, rfl⟩ | ⟨-, -, u, l, hrule, rfl⟩ | ⟨-, -, r, -, rfl⟩ := exec_cases h
    · simp [hf] at hf'
    · exact raise_latch hf hc _
    · have hw := Writes.rule hrule
      simp [hw.fault, hw.faultCause, hf, hc]
    · have hw := Writes.unspecified i s
      exact raise_latch (hw.fault.trans hf) (hw.faultCause.trans hc) r
  · intro s t hf hreset h
    obtain ⟨-, rfl⟩ | ⟨q, rest, hp, hserved⟩ := step_cases h
    · exact ⟨hf, rfl⟩
    · exact hserved.keeps_latch hf fun hq => hreset rest (hq ▸ hp)

/-- Settles O18: what each instruction may write, by its stage's frame and the draws of R229. -/
theorem onlyTheNamedInstructionsWrite : Obligations.OnlyTheNamedInstructionsWrite := by
  unfold Obligations.OnlyTheNamedInstructionsWrite
  intro i s t h
  obtain ⟨u, hw, ht⟩ := exec_writes h
  rw [ht]
  exact ⟨hw.inBuf, hw.caps, hw.pending, hw.outAppended, hw.outBuf, hw.blob, hw.cur, hw.curWithin,
    hw.freq, hw.sorter, hw.arena, hw.valid, hw.treeArrays, hw.reg⟩

end Sys2Proof
end

section
/-! SUPPORT. The control registers, reset, the host's interactions, and the two commands that write one register:
O1, O7, O16 and O27. -/

namespace Sys2Proof

open Machine Claims

/-! ### Numbers as bytes -/

@[simp] theorem length_leBytes (k v : Nat) : (leBytes k v).length = k := by
  simp [leBytes]

theorem leBytes_succ (k v : Nat) : leBytes (k + 1) v = BitVec.ofNat 8 v :: leBytes k (v / 256) := by
  rw [leBytes, List.range_succ_eq_map, List.map_cons, List.map_map, leBytes]
  refine congrArg₂ _ (by simp) (List.map_congr_left fun j _ => ?_)
  rw [Function.comp, Nat.div_div_eq_div_mul, show 8 * (j + 1) = 8 + 8 * j by omega, Nat.pow_add]

/-- Little-endian bytes are read back (R89, R171). -/
theorem leNat_leBytes {k v : Nat} (h : v < 256 ^ k) : leNat (leBytes k v) = v := by
  induction k generalizing v with
  | zero => simpa [leBytes, leNat, eq_comm] using h
  | succ k ih =>
    rw [leBytes_succ, leNat, ih (Nat.div_lt_of_lt_mul (by rwa [← Nat.pow_succ'])), BitVec.toNat_ofNat]
    omega

theorem leNat_read64 {v : Nat} (h : v < 2 ^ 64) : leNat (read64 v) = v := by
  have hv : (zext64 v).toNat = v := by
    rw [zext64, if_pos h, BitVec.toNat_ofNat, Nat.mod_eq_of_lt h]
  rw [read64, hv, leNat_leBytes (by omega)]

/-! ### The control registers -/

namespace Machine

/-- TABLE_COUNT counts the valid bits (R37, R45). -/
theorem State.alphabet_length (s : State) : s.alphabet.length = s.codeValid.toList.count true := by
  have : s.codeValid.toList = s.codeValid.toList.zipIdx.map Prod.fst := by simp
  rw [State.alphabet, List.length_map, ← List.countP_eq_length_filter]
  conv_rhs => rw [this, List.count, List.countP_map]
  exact List.countP_congr fun x _ => by simp

/-- CSR.READ reads the table of R45. -/
theorem State.csr_of_mem_csrTable {s : State} {x : Byte × Nat} (h : x ∈ csrTable s) :
    csrListed x.1 = true ∧ s.csr x.1 = some x.2 := by
  revert x
  simp only [csrTable, List.forall_mem_cons, ← State.alphabet_length]
  refine ⟨⟨rfl, rfl⟩, ⟨rfl, rfl⟩, ⟨rfl, ?_⟩, ⟨rfl, rfl⟩, ⟨rfl, rfl⟩, ⟨rfl, rfl⟩, ⟨rfl, rfl⟩, ⟨rfl, rfl⟩,
    ⟨rfl, ?_⟩, ⟨rfl, ?_⟩, ⟨rfl, rfl⟩, ⟨rfl, rfl⟩, ⟨rfl, rfl⟩, ⟨rfl, rfl⟩, ⟨rfl, rfl⟩, ⟨rfl, rfl⟩,
    ⟨rfl, rfl⟩, ⟨rfl, rfl⟩, nofun⟩
  · cases h : s.faultCause <;> simp [State.csr, causeByte, h]
  · cases h : s.arena.root <;> simp [State.csr, h]
  · cases h : s.arena.root <;> simp [State.csr, h]

end Machine

/-- Settles O16: every row of the table is a register that CSR.READ reads. -/
theorem csrReadReturnsTheRegister : Obligations.CsrReadReturnsTheRegister := by
  unfold Obligations.CsrReadReturnsTheRegister
  intro s hf x hx
  obtain ⟨hlisted, hcsr⟩ := State.csr_of_mem_csrTable hx
  have hrule : (Instr.csrRead x.1).rule s = .ok (s, read64 x.2) := by simp [Instr.rule, hcsr]
  exact ⟨read64 x.2, length_leBytes 8 _, leNat_read64, exec_ok hf (if_pos hlisted) hrule⟩

/-! ### Reset -/

theorem Machine.State.reg_reset (r : Nat) : State.reset.reg r = .empty := by
  unfold State.reg State.reset
  split_ifs <;> simp

/-- The reset values of the core, whatever the model's own fields hold (R49). -/
theorem resetTable_hostReset (s : State) : ResetTable s.hostReset := by
  refine ⟨fun r _ => ?_, fun y => ?_, rfl, rfl, rfl, fun y => ?_, rfl, fun i => ?_, rfl, rfl, rfl, rfl,
    rfl, rfl, rfl, fun n hn => ?_⟩
  · exact (State.reg_congr (s := State.reset) (fun _ => rfl) (fun _ => rfl) (fun _ => rfl) (fun _ => rfl)
      fun _ => rfl).trans (State.reg_reset r)
  · simp [State.reset]
  · simp [State.reset]
  · simp [State.reset]
  · have halphabet : s.hostReset.alphabet.length = 0 := by
      rw [State.alphabet_length, State.hostReset_codeValid]
      unfold State.reset
      rw [Vector.toList_replicate]
      exact List.count_eq_zero.2 fun h => by simpa using List.eq_of_mem_replicate h
    rw [State.csr, halphabet]
    interval_cases n.toNat <;> rfl

theorem Machine.State.hostReset_reset : State.reset.hostReset = State.reset := by
  unfold State.hostReset
  generalize State.reset = s
  rfl

/-- Settles O1: HostReset writes the reset state over everything of the core. -/
theorem resetGivesTheValuesOfTheTable : Obligations.ResetGivesTheValuesOfTheTable := by
  unfold Obligations.ResetGivesTheValuesOfTheTable
  refine ⟨State.hostReset_reset ▸ resetTable_hostReset State.reset, fun s rest hp => ?_⟩
  have hstep : step s = .next (State.hostReset { s with pending := rest }) := by
    simp only [step, hp, serve]
  exact ⟨_, hstep, resetTable_hostReset _, State.hostReset_pending _, State.hostReset_caps _⟩

/-! ### The host's interactions -/

/-- Settles O7: a step serves the oldest request, and each interaction is one update. -/
theorem hostInteractionsTouchOnlyTheirBuffer : Obligations.HostInteractionsTouchOnlyTheirBuffer := by
  unfold Obligations.HostInteractionsTouchOnlyTheirBuffer
  intro s rest l
  refine ⟨fun hp hcap => ?_, fun hp hcap => ?_, fun hp hcap => ?_, fun hp => ?_, fun hp => ?_, fun hp => ?_⟩
  · simp [step, hp, serve, hcap]
  · simp [step, hp, serve, hcap]
  · simp [step, hp, serve, hcap]
  · simp [step, hp, serve]
  · simp [step, hp, serve]
  · simp [step, hp, serve]

/-! ### BS.CLEAR and BS.COPY -/

/-- A command whose rule writes one register and nothing else (R27). -/
theorem wroteRegister_finish_setReg (s : State) {r : Nat} (hr : r < 263) (v : BitSeq) :
    WroteRegister s ((s.setReg r v).finish []) r v := by
  refine ⟨State.reg_setReg_same s r v hr, fun q _ hq => State.reg_setReg_of_ne s r q v hq, ?_⟩
  rw [State.setReg_frame]
  rfl

theorem registerProblem_of_lt {r : BitVec 16} (h : r.toNat < 263) : registerProblem r = none := by
  rw [registerProblem, Config.nbs, if_pos h]

/-- Settles O27: both rules are one register write, and COPY reads its source before. -/
theorem clearAndCopyWriteOneRegister : Obligations.ClearAndCopyWriteOneRegister := by
  unfold Obligations.ClearAndCopyWriteOneRegister
  intro r o s hf hr
  refine ⟨⟨_, exec_ok hf ?_ rfl, wroteRegister_finish_setReg s hr .empty⟩,
    fun ho => ⟨_, exec_ok hf ?_ rfl, wroteRegister_finish_setReg s hr (s.reg o.toNat)⟩⟩
  · exact registerProblem_of_lt hr
  · simp [Instr.WellFormed, Instr.problem, registerProblem_of_lt hr, registerProblem_of_lt ho]

end Sys2Proof
end

section
/-! SUPPORT. The tree arena (spec/10_state.md R30 to R34): a path reaches a node step by step, in a hierarchical arena
one path at most, and what one allocation and one change of a node's kind do to every path. -/

namespace Sys2Proof

open Claims

/-! ### Hierarchical arenas -/

/-- The child of node `i` on the side of bit `b` (R30, R33). -/
def childOf (nodes : List Node) (i : Nat) (b : Bool) : Option Nat := nodes[i]?.bind fun n => n.child b

theorem Node.mem_children_of_child {n : Node} {b : Bool} {c : Nat} (h : n.child b = some c) :
    c ∈ n.children := by
  cases n with
  | leaf => cases h
  | internal l r f =>
    cases b <;> simp only [Node.child, Bool.false_eq_true, if_true, if_false] at h <;>
      simp [Node.children, h]

theorem mem_children_of_childOf {a : Arena} {i c : Nat} {b : Bool} (h : childOf a.nodes i b = some c) :
    c ∈ a.children := by
  obtain ⟨n, hn, hc⟩ := Option.bind_eq_some_iff.1 h
  exact List.mem_flatMap.2 ⟨n, List.mem_of_getElem? hn, Node.mem_children_of_child hc⟩

/-- The clauses of `Arena.Wf` about the root, without Booleans. -/
theorem Arena.root_wf_iff (a : Arena) :
    a.root.all (fun r => decide (r < a.nodes.length) && !a.children.contains r) = true ↔
      ∀ r, a.root = some r → r < a.nodes.length ∧ r ∉ a.children := by
  cases a.root <;> simp

theorem Arena.Wf.length_le {a : Arena} (h : a.Wf) : a.nodes.length ≤ Config.nodeCap := by
  obtain ⟨hlen, -⟩ := h
  exact hlen

theorem Arena.Wf.children_lt {a : Arena} (h : a.Wf) {c : Nat} (hc : c ∈ a.children) :
    c < a.nodes.length := by
  obtain ⟨-, hlt, -⟩ := h
  exact hlt c hc

theorem Arena.Wf.root_spec {a : Arena} (h : a.Wf) {root : Nat} (hroot : a.root = some root) :
    root < a.nodes.length ∧ root ∉ a.children := by
  obtain ⟨-, -, -, hr⟩ := h
  exact a.root_wf_iff.1 hr root hroot

/-- Every node has one parent at most, and hangs on one side of it (R33). -/
theorem Arena.Wf.parent_unique {a : Arena} (h : a.Wf) {i i' c : Nat} {b b' : Bool}
    (hc : childOf a.nodes i b = some c) (hc' : childOf a.nodes i' b' = some c) : i = i' ∧ b = b' := by
  obtain ⟨-, -, hnodup, -⟩ := h
  obtain ⟨hone, hapart⟩ := List.nodup_flatMap.1 hnodup
  obtain ⟨n, hn, hc⟩ := Option.bind_eq_some_iff.1 hc
  obtain ⟨n', hn', hc'⟩ := Option.bind_eq_some_iff.1 hc'
  have hmem := Node.mem_children_of_child hc
  have hmem' := Node.mem_children_of_child hc'
  obtain ⟨hi, rfl⟩ := List.getElem?_eq_some_iff.1 hn
  obtain ⟨hi', rfl⟩ := List.getElem?_eq_some_iff.1 hn'
  rw [List.pairwise_iff_getElem] at hapart
  have heq : i = i' := by
    rcases Nat.lt_trichotomy i i' with hlt | heq | hlt
    · exact absurd hmem' fun hm => hapart i i' hi hi' hlt hmem hm
    · exact heq
    · exact absurd hmem fun hm => hapart i' i hi' hi hlt hmem' hm
  subst heq
  refine ⟨rfl, ?_⟩
  have hnd := hone _ (List.getElem_mem hi)
  cases hnode : a.nodes[i] with
  | leaf => rw [hnode] at hc; cases hc
  | internal l r f =>
    rw [hnode] at hc hc' hnd
    cases b <;> cases b' <;> simp_all [Node.child, Node.children]

/-! ### Paths -/

theorem Arena.descend_cons (a : Arena) (i : Nat) (b : Bool) (p : List Bool) :
    a.descend i (b :: p) = (childOf a.nodes i b).bind fun c => a.descend c p := by
  rw [Arena.descend, childOf]
  cases a.nodes[i]? with
  | none => rfl
  | some n => cases h : n.child b <;> simp [h]

theorem Arena.descend_lt {a : Arena} {i j : Nat} {p : List Bool} (h : a.descend i p = some j) :
    i < a.nodes.length ∧ j < a.nodes.length := by
  induction p generalizing i with
  | nil =>
    rw [Arena.descend] at h
    split_ifs at h with hi
    cases h
    exact ⟨hi, hi⟩
  | cons b p ih =>
    rw [Arena.descend_cons] at h
    obtain ⟨c, hc, hj⟩ := Option.bind_eq_some_iff.1 h
    obtain ⟨n, hn, -⟩ := Option.bind_eq_some_iff.1 hc
    exact ⟨(List.getElem?_eq_some_iff.1 hn).1, (ih hj).2⟩

theorem Arena.descend_nil {a : Arena} {i : Nat} (h : i < a.nodes.length) : a.descend i [] = some i :=
  if_pos h

theorem Arena.descend_append (a : Arena) (i : Nat) (p q : List Bool) :
    a.descend i (p ++ q) = (a.descend i p).bind fun j => a.descend j q := by
  induction p generalizing i with
  | nil =>
    rcases Nat.lt_or_ge i a.nodes.length with hi | hi
    · simp [Arena.descend_nil hi]
    · have : a.descend i q = none := Option.eq_none_iff_forall_ne_some.2 fun j hj =>
        absurd (Arena.descend_lt hj).1 (Nat.not_lt.2 hi)
      simp [Arena.descend, Nat.not_lt.2 hi, this]
  | cons b p ih =>
    simp [Arena.descend_cons, ih, Option.bind_assoc]

theorem Arena.Wf.childOf_lt {a : Arena} (h : a.Wf) {i c : Nat} {b : Bool}
    (hc : childOf a.nodes i b = some c) : c < a.nodes.length :=
  h.children_lt (mem_children_of_childOf hc)

theorem Arena.Wf.descend_concat {a : Arena} (h : a.Wf) (i : Nat) (p : List Bool) (b : Bool) :
    a.descend i (p ++ [b]) = (a.descend i p).bind fun j => childOf a.nodes j b := by
  rw [Arena.descend_append]
  refine congrArg _ (funext fun j => ?_)
  rw [Arena.descend_cons]
  cases hc : childOf a.nodes j b with
  | none => rfl
  | some c => exact Arena.descend_nil (h.childOf_lt hc)

/-- From the root one path at most leads to a node (R33). -/
theorem Arena.Wf.descend_inj {a : Arena} (h : a.Wf) {root j : Nat} (hroot : a.root = some root)
    {p p' : List Bool} (hp : a.descend root p = some j) (hp' : a.descend root p' = some j) : p = p' := by
  obtain ⟨hlt, hnot⟩ := h.root_spec hroot
  have hnoParent : ∀ q b, a.descend root (q ++ [b]) ≠ some root := fun q b hq => by
    rw [h.descend_concat] at hq
    obtain ⟨i, -, hc⟩ := Option.bind_eq_some_iff.1 hq
    exact hnot (mem_children_of_childOf hc)
  induction p using List.reverseRecOn generalizing p' j with
  | nil =>
    rw [Arena.descend_nil hlt] at hp
    cases hp
    induction p' using List.reverseRecOn with
    | nil => rfl
    | append_singleton q b => exact absurd hp' (hnoParent q b)
  | append_singleton q b ih =>
    induction p' using List.reverseRecOn with
    | nil =>
      rw [Arena.descend_nil hlt] at hp'
      cases hp'
      exact absurd hp (hnoParent q b)
    | append_singleton q' b' =>
      rw [h.descend_concat] at hp hp'
      obtain ⟨i, hi, hc⟩ := Option.bind_eq_some_iff.1 hp
      obtain ⟨i', hi', hc'⟩ := Option.bind_eq_some_iff.1 hp'
      obtain ⟨rfl, rfl⟩ := h.parent_unique hc hc'
      rw [ih hi hi']

/-! ### The node at the end of a path -/

/-- The node that a path from node `i` ends at. -/
def Arena.nodeAt (a : Arena) (i : Nat) (p : List Bool) : Option Node :=
  (a.descend i p).bind fun j => a.nodes[j]?

theorem leafAt_iff {a : Arena} {i : Nat} {p : List Bool} {y : Byte} :
    LeafAt a i p y ↔ ∃ f, a.nodeAt i p = some (.leaf y f) := by
  simp only [LeafAt, Arena.nodeAt, Option.bind_eq_some_iff]
  exact exists_comm.trans (exists_congr fun f => exists_congr fun j => Iff.rfl)

theorem innerAt_iff {a : Arena} {i : Nat} {p : List Bool} {l r : Option Nat} :
    InnerAt a i p l r ↔ ∃ f, a.nodeAt i p = some (.internal l r f) := by
  simp only [InnerAt, Arena.nodeAt, Option.bind_eq_some_iff]
  exact exists_comm.trans (exists_congr fun f => exists_congr fun j => Iff.rfl)

/-- An internal node, whatever its children, stands at the end of a path. -/
def Inner (a : Arena) (i : Nat) (p : List Bool) : Prop := ∃ l r, InnerAt a i p l r

/-- A path goes on below internal nodes only: what stands above a node is internal. -/
theorem inner_of_descend_append {a : Arena} {i : Nat} {p q : List Bool} (hq : q ≠ [])
    (h : a.descend i (p ++ q) ≠ none) : Inner a i p := by
  obtain ⟨b, rest, rfl⟩ := List.exists_cons_of_ne_nil hq
  obtain ⟨k, hk⟩ := Option.ne_none_iff_exists'.1 h
  rw [Arena.descend_append] at hk
  obtain ⟨j, hj, hk⟩ := Option.bind_eq_some_iff.1 hk
  rw [Arena.descend_cons] at hk
  obtain ⟨c, hc, -⟩ := Option.bind_eq_some_iff.1 hk
  obtain ⟨n, hn, hc⟩ := Option.bind_eq_some_iff.1 hc
  cases n with
  | leaf => cases hc
  | internal l r f => exact ⟨l, r, j, f, hj, hn⟩

theorem Inner.of_prefix {a : Arena} {i : Nat} {p p' : List Bool} (h : Inner a i p) (hp : p' <+: p) :
    Inner a i p' := by
  obtain ⟨q, rfl⟩ := hp
  by_cases hq : q = []
  · subst hq
    simpa using h
  · obtain ⟨l, r, j, f, hj, -⟩ := h
    exact inner_of_descend_append hq (by simp [hj])

/-! ### Changing the arena -/

/-- An arena with more nodes and the same root is hierarchical when the child indexes it adds are new nodes,
each once. -/
theorem Arena.Wf.of_perm {a a' : Arena} (h : a.Wf) (new : List Nat) (hroot : a'.root = a.root)
    (hcap : a'.nodes.length ≤ Config.nodeCap) (hlen : a.nodes.length ≤ a'.nodes.length)
    (hperm : a'.children.Perm (new ++ a.children)) (hnodup : new.Nodup)
    (hnew : ∀ c ∈ new, a.nodes.length ≤ c ∧ c < a'.nodes.length) : a'.Wf := by
  obtain ⟨-, -, hnd, -⟩ := id h
  refine ⟨hcap, fun c hc => ?_, ?_, (Arena.root_wf_iff _).2 fun r hr => ?_⟩
  · rcases List.mem_append.1 (hperm.mem_iff.1 hc) with hc | hc
    · exact (hnew c hc).2
    · exact (h.children_lt hc).trans_le hlen
  · refine hperm.nodup_iff.2 (List.nodup_append'.2 ⟨hnodup, hnd, fun c hc hc' => ?_⟩)
    exact absurd (h.children_lt hc') (Nat.not_lt.2 (hnew c hc).1)
  · obtain ⟨hrlt, hrnot⟩ := h.root_spec (hroot ▸ hr)
    refine ⟨hrlt.trans_le hlen, fun hc => ?_⟩
    rcases List.mem_append.1 (hperm.mem_iff.1 hc) with hc | hc
    · exact absurd hrlt (Nat.not_lt.2 (hnew r hc).1)
    · exact hrnot hc

/-- Rewriting one node changes that node's child indexes alone. -/
theorem flatMap_children_set_perm {nodes : List Node} {j : Nat} {x y : Node} (hx : nodes[j]? = some x)
    {new : List Nat} (hy : y.children.Perm (new ++ x.children)) :
    ((nodes.set j y).flatMap Node.children).Perm (new ++ nodes.flatMap Node.children) := by
  obtain ⟨hj, rfl⟩ := List.getElem?_eq_some_iff.1 hx
  have hset := (List.set_perm_cons_eraseIdx hj y).flatMap_right Node.children
  have hold := (List.getElem_cons_eraseIdx_perm hj).flatMap_right Node.children
  rw [List.flatMap_cons] at hset hold
  refine hset.trans ((hy.append_right _).trans ?_)
  rw [List.append_assoc]
  exact hold.append_left new

/-- The arena with a node rewritten. -/
def Arena.setNode (a : Arena) (j : Nat) (n : Node) : Arena := { a with nodes := a.nodes.set j n }

/-- The final node of an insertion becomes the leaf (R153). -/
theorem Arena.Wf.setLeaf {a : Arena} (h : a.Wf) {j f : Nat} {y : Byte}
    (hj : a.nodes[j]? = some (.internal none none f)) : (a.setNode j (.leaf y f)).Wf := by
  refine h.of_perm [] rfl ?_ ?_ (flatMap_children_set_perm hj (by simp [Node.children])) (by simp)
    (by simp)
  · simpa [Arena.setNode] using h.length_le
  · simp [Arena.setNode]

/-- The internal node that `attachChild` leaves at the parent: one of its children is the new node `c`. -/
def Node.withChild (l r : Option Nat) (f : Nat) (b : Bool) (c : Nat) : Node :=
  if b then .internal l (some c) f else .internal (some c) r f

theorem attachChild_eq (nodes : List Node) (j : Nat) (l r : Option Nat) (f : Nat) (b : Bool) :
    attachChild nodes j l r f b =
      nodes.set j (.withChild l r f b nodes.length) ++ [.internal none none 0] := rfl

theorem Node.child_withChild (l r : Option Nat) (f : Nat) (b : Bool) (c : Nat) (b' : Bool) :
    (Node.withChild l r f b c).child b' =
      if b' = b then some c else (Node.internal l r f).child b' := by
  cases b <;> cases b' <;> rfl

/-- The arena after `attachChild`. -/
def Arena.attach (a : Arena) (j : Nat) (l r : Option Nat) (f : Nat) (b : Bool) : Arena :=
  { a with nodes := attachChild a.nodes j l r f b }

@[simp] theorem length_attachChild (nodes : List Node) (j : Nat) (l r : Option Nat) (f : Nat) (b : Bool) :
    (attachChild nodes j l r f b).length = nodes.length + 1 := by
  simp [attachChild]

/-- A missing child allocated keeps the arena hierarchical, NODE_CAP allowing it (R33, R34). -/
theorem Arena.Wf.attach {a : Arena} (h : a.Wf) {j f : Nat} {l r : Option Nat} {b : Bool}
    (hj : a.nodes[j]? = some (.internal l r f)) (hnone : (if b then r else l) = none)
    (hcap : a.nodes.length < Config.nodeCap) : (a.attach j l r f b).Wf := by
  refine h.of_perm [a.nodes.length] rfl ?_ ?_ ?_ (by simp) ?_
  · simpa [Arena.attach] using hcap
  · simp [Arena.attach]
  · have hnode : (Node.withChild l r f b a.nodes.length).children.Perm
        ([a.nodes.length] ++ (Node.internal l r f).children) := by
      cases b <;> simp_all [Node.withChild, Node.children]
    simpa [Arena.attach, Arena.children, attachChild_eq, Node.children] using
      flatMap_children_set_perm hj hnode
  · simp [Arena.attach]

/-- A leaf in place of a node without children leaves every path. -/
theorem Arena.descend_setLeaf {a : Arena} {j f : Nat} {y : Byte}
    (hj : a.nodes[j]? = some (.internal none none f)) (i : Nat) (p : List Bool) :
    (a.setNode j (.leaf y f)).descend i p = a.descend i p := by
  have hchild : ∀ i b, childOf (a.setNode j (.leaf y f)).nodes i b = childOf a.nodes i b := fun i b => by
    by_cases hij : j = i
    · subst hij
      obtain ⟨hlt, hnode⟩ := List.getElem?_eq_some_iff.1 hj
      cases b <;> simp [childOf, Arena.setNode, hlt, hnode, Node.child]
    · simp [childOf, Arena.setNode, hij]
  induction p generalizing i with
  | nil => simp [Arena.descend, Arena.setNode]
  | cons b p ih => simp only [Arena.descend_cons, hchild, ih]

/-- What the rewritten node changes at the end of each path from the root. -/
theorem Arena.Wf.nodeAt_setLeaf {a : Arena} (h : a.Wf) {root j f : Nat} {y : Byte} {p : List Bool}
    (hroot : a.root = some root) (hp : a.descend root p = some j)
    (hj : a.nodes[j]? = some (.internal none none f)) (p' : List Bool) :
    (a.setNode j (.leaf y f)).nodeAt root p' = if p' = p then some (.leaf y f) else a.nodeAt root p' := by
  have hlt := (Arena.descend_lt hp).2
  rw [Arena.nodeAt, Arena.descend_setLeaf hj]
  split_ifs with heq
  · simp [heq, hp, Arena.setNode, hlt]
  · rw [Arena.nodeAt]
    cases hi : a.descend root p' with
    | none => rfl
    | some i =>
      have hij : j ≠ i := fun hij => heq (h.descend_inj hroot hi (hij ▸ hp))
      simp [Arena.setNode, hij]

/-- The nodes after `attachChild`: the parent with its new child, the old ones, the new one. -/
theorem getElem?_attachChild {nodes : List Node} {j : Nat} (hj : j < nodes.length) (l r : Option Nat)
    (f : Nat) (b : Bool) (i : Nat) :
    (attachChild nodes j l r f b)[i]? =
      if i = nodes.length then some (.internal none none 0)
      else if i = j then some (.withChild l r f b nodes.length)
      else nodes[i]? := by
  rw [attachChild_eq]
  split_ifs with hlast hij
  · subst hlast
    simp
  · subst hij
    rw [List.getElem?_append_left (by simpa using hj)]
    simp [hj]
  · rcases Nat.lt_or_ge i nodes.length with hi | hi
    · rw [List.getElem?_append_left (by simpa using hi), List.getElem?_set_ne (Ne.symm hij)]
    · rw [List.getElem?_eq_none (by simp; omega), List.getElem?_eq_none hi]

theorem childOf_attachChild {nodes : List Node} {j f : Nat} {l r : Option Nat} {b : Bool}
    (hj : nodes[j]? = some (.internal l r f)) (i : Nat) (c : Bool) :
    childOf (attachChild nodes j l r f b) i c =
      if i = j ∧ c = b then some nodes.length else childOf nodes i c := by
  have hlt := (List.getElem?_eq_some_iff.1 hj).1
  rw [childOf, getElem?_attachChild hlt]
  by_cases hlast : i = nodes.length
  · have : ¬(i = j ∧ c = b) := fun h => by omega
    rw [if_pos hlast, if_neg this, childOf, hlast, List.getElem?_eq_none (Nat.le_refl _)]
    cases c <;> rfl
  · rw [if_neg hlast]
    by_cases hij : i = j
    · subst hij
      simp [childOf, hj, Node.child_withChild]
    · simp [hij, childOf]

/-- The new node is reached by the path to its parent and its side; every other path is as it was. -/
theorem Arena.Wf.descend_attach {a : Arena} (h : a.Wf) {root j f : Nat} {l r : Option Nat} {b : Bool}
    {p : List Bool} (hroot : a.root = some root) (hp : a.descend root p = some j)
    (hj : a.nodes[j]? = some (.internal l r f)) (hnone : (if b then r else l) = none)
    (hcap : a.nodes.length < Config.nodeCap) (p' : List Bool) :
    (a.attach j l r f b).descend root p' =
      if p' = p ++ [b] then some a.nodes.length else a.descend root p' := by
  have hwf := h.attach hj hnone hcap
  have hchild : ∀ i c, childOf (a.attach j l r f b).nodes i c =
      if i = j ∧ c = b then some a.nodes.length else childOf a.nodes i c := childOf_attachChild hj
  have hjb : childOf a.nodes j b = none := by
    simpa [childOf, hj, Node.child] using hnone
  induction p' using List.reverseRecOn with
  | nil =>
    have hlt := (Arena.descend_lt hp).1
    rw [if_neg (by simp), Arena.descend_nil hlt, Arena.descend_nil (by simp [Arena.attach]; omega)]
  | append_singleton p' c ih =>
    rw [hwf.descend_concat, h.descend_concat, ih]
    by_cases hnew : p' = p ++ [b]
    · have hold : a.descend root p' = none := by
        rw [hnew, h.descend_concat, hp]
        exact hjb
      have hbeyond : childOf a.nodes a.nodes.length c = none := by
        simp [childOf]
      have hlt := (Arena.descend_lt hp).2
      rw [if_pos hnew, if_neg (by simp [hnew]), hold, Option.bind_some, hchild,
        if_neg (fun hc => by omega), hbeyond]
      rfl
    · rw [if_neg hnew]
      cases hi : a.descend root p' with
      | none =>
        have : p' ≠ p := fun hpp => by simp [← hpp, hi] at hp
        simp [this]
      | some i =>
        have hij : i = j ↔ p' = p :=
          ⟨fun hij => h.descend_inj hroot hi (hij ▸ hp), fun hpp => by
            rw [hpp, hp] at hi; exact (Option.some.inj hi).symm⟩
        have hconcat : p' ++ [c] = p ++ [b] ↔ p' = p ∧ c = b :=
          ⟨fun h => by simpa using List.append_inj' h rfl, fun ⟨hp, hc⟩ => by rw [hp, hc]⟩
        simp only [Option.bind_some, hchild, hij, hconcat]

theorem Arena.Wf.nodeAt_attach {a : Arena} (h : a.Wf) {root j f : Nat} {l r : Option Nat} {b : Bool}
    {p : List Bool} (hroot : a.root = some root) (hp : a.descend root p = some j)
    (hj : a.nodes[j]? = some (.internal l r f)) (hnone : (if b then r else l) = none)
    (hcap : a.nodes.length < Config.nodeCap) (p' : List Bool) :
    (a.attach j l r f b).nodeAt root p' =
      if p' = p ++ [b] then some (.internal none none 0)
      else if p' = p then some (.withChild l r f b a.nodes.length)
      else a.nodeAt root p' := by
  have hlt := (Arena.descend_lt hp).2
  have hnode : ∀ i, (a.attach j l r f b).nodes[i]? = _ := getElem?_attachChild hlt l r f b
  rw [Arena.nodeAt, h.descend_attach hroot hp hj hnone hcap]
  split_ifs with hnew hpp
  · rw [Option.bind_some, hnode, if_pos rfl]
  · rw [hpp, hp, Option.bind_some, hnode, if_neg (Nat.ne_of_lt hlt), if_pos rfl]
  · rw [Arena.nodeAt]
    cases hi : a.descend root p' with
    | none => rfl
    | some i =>
      have hij : i ≠ j := fun hij => hpp (h.descend_inj hroot hi (hij ▸ hp))
      rw [Option.bind_some, Option.bind_some, hnode, if_neg (Nat.ne_of_lt (Arena.descend_lt hi).2),
        if_neg hij]

end Sys2Proof
end

section
/-! SUPPORT. Insertion into the tree (spec/41_codetree.md R153 to R156): the walk follows the part of the code that
exists and allocates the rest, then the last node becomes the leaf. O40 and O42 follow. -/

namespace Sys2Proof

open Machine Claims

/-! ### The walk of one insertion -/

/-- Where the code's nodes exist the walk only follows them (R153). -/
theorem walkPath_descend {a : Arena} {i j : Nat} {p : List Bool} (h : a.descend i p = some j)
    (q : List Bool) : walkPath a.nodes i (p ++ q) = walkPath a.nodes j q := by
  induction p generalizing i with
  | nil =>
    rw [Arena.descend_nil (Arena.descend_lt h).1] at h
    cases h
    rfl
  | cons b p ih =>
    rw [Arena.descend_cons] at h
    obtain ⟨c, hc, hj⟩ := Option.bind_eq_some_iff.1 h
    obtain ⟨n, hn, hc⟩ := Option.bind_eq_some_iff.1 hc
    cases n with
    | leaf => cases hc
    | internal l r f =>
      have hc : (if b then r else l) = some c := hc
      rw [List.cons_append, walkPath, hn]
      simp only [hc]
      exact ih hj

/-- One turn of the walk at a missing child (R34). -/
theorem walkPath_cons_missing {a : Arena} {j f : Nat} {l r : Option Nat} {b : Bool}
    (hj : a.nodes[j]? = some (.internal l r f)) (hnone : (if b then r else l) = none) (q : List Bool) :
    walkPath a.nodes j (b :: q) =
      if a.nodes.length < Config.nodeCap then walkPath (a.attach j l r f b).nodes a.nodes.length q
      else .error (.raise (.call .capacity)) := by
  rw [walkPath, hj]
  simp only [hnone]
  rfl

/-- A node that an insertion can go on from: the code's next bit, if any, leads to no child, and with no bit
left it has no child at all. -/
def OpenEnd (l r : Option Nat) (q : List Bool) : Prop :=
  (q = [] → l = none ∧ r = none) ∧ ∀ b rest, q = b :: rest → (if b then r else l) = none

theorem openEnd_bare (q : List Bool) : OpenEnd none none q :=
  ⟨fun _ => ⟨rfl, rfl⟩, fun b _ _ => by cases b <;> rfl⟩

/-- Past NODE_CAP the walk below the existing nodes is E_CAPACITY (R34). -/
theorem walkPath_capacity {a : Arena} {j f : Nat} {l r : Option Nat} {q : List Bool}
    (hlen : a.nodes.length ≤ Config.nodeCap) (hj : a.nodes[j]? = some (.internal l r f))
    (hopen : OpenEnd l r q) (hover : Config.nodeCap < a.nodes.length + q.length) :
    walkPath a.nodes j q = .error (.raise (.call .capacity)) := by
  induction q generalizing a j l r f with
  | nil => exact absurd hover (Nat.not_lt.2 hlen)
  | cons b q ih =>
    have hnone := hopen.2 b q rfl
    rw [walkPath_cons_missing hj hnone]
    split_ifs with hcap
    · refine ih (a := a.attach j l r f b) (l := none) (r := none) (f := 0) ?_ ?_ (openEnd_bare q) ?_
      · simpa [Arena.attach] using hcap
      · rw [Arena.attach, getElem?_attachChild (List.getElem?_eq_some_iff.1 hj).1, if_pos rfl]
      · simp only [Arena.attach, length_attachChild, List.length_cons] at hover ⊢
        omega
    · rfl

/-- `a'` is `a` with the nodes of a code added, the last one without a child. -/
structure Grown (a a' : Arena) (root : Nat) (code : List Bool) (last : Nat) : Prop where
  wf : a'.Wf
  root_eq : a'.root = some root
  descend_code : a'.descend root code = some last
  bare : ∃ f, a'.nodes[last]? = some (.internal none none f)
  inner : ∀ p, Inner a' root p ↔ Inner a root p ∨ p <+: code
  leaf : ∀ p y, LeafAt a' root p y ↔ LeafAt a root p y

/-- One allocated child: an internal node at the end of its path, the kinds of all others kept. -/
theorem Arena.Wf.attach_paths {a : Arena} (h : a.Wf) {root j f : Nat} {l r : Option Nat} {b : Bool}
    {p : List Bool} (hroot : a.root = some root) (hp : a.descend root p = some j)
    (hj : a.nodes[j]? = some (.internal l r f)) (hnone : (if b then r else l) = none)
    (hcap : a.nodes.length < Config.nodeCap) :
    (∀ p', Inner (a.attach j l r f b) root p' ↔ Inner a root p' ∨ p' = p ++ [b]) ∧
      ∀ p' y, LeafAt (a.attach j l r f b) root p' y ↔ LeafAt a root p' y := by
  have hnew : a.nodeAt root (p ++ [b]) = none := by
    rw [Arena.nodeAt, h.descend_concat, hp]
    simp [childOf, hj, Node.child, hnone]
  have hold : a.nodeAt root p = some (.internal l r f) := by
    simp [Arena.nodeAt, hp, hj]
  have hparent : ∃ l' r', Node.withChild l r f b a.nodes.length = .internal l' r' f := by
    cases b
    · exact ⟨_, _, rfl⟩
    · exact ⟨_, _, rfl⟩
  obtain ⟨l', r', hparent⟩ := hparent
  constructor
  · intro p'
    simp only [Inner, innerAt_iff, h.nodeAt_attach hroot hp hj hnone hcap, hparent]
    split_ifs with h1 h2
    · simp [h1]
    · simp [h2, hold]
    · simp [h1]
  · intro p' y
    simp only [leafAt_iff, h.nodeAt_attach hroot hp hj hnone hcap, hparent]
    split_ifs with h1 h2
    · simp [h1, hnew]
    · simp [h2, hold]
    · rfl

/-- With room within NODE_CAP the walk allocates one node per missing bit (R34, R153). -/
theorem walkPath_grown {a : Arena} (h : a.Wf) {root j f : Nat} {l r : Option Nat} {p q : List Bool}
    (hroot : a.root = some root) (hp : a.descend root p = some j)
    (hj : a.nodes[j]? = some (.internal l r f)) (hopen : OpenEnd l r q)
    (hroom : a.nodes.length + q.length ≤ Config.nodeCap) :
    ∃ a' last, walkPath a.nodes j q = .ok (a'.nodes, last) ∧
      a'.nodes.length = a.nodes.length + q.length ∧ Grown a a' root (p ++ q) last := by
  induction q generalizing a p j l r f with
  | nil =>
    obtain ⟨rfl, rfl⟩ := hopen.1 rfl
    have hinner : Inner a root p := ⟨none, none, j, f, hp, hj⟩
    refine ⟨a, j, rfl, rfl, h, hroot, by simpa using hp, ⟨f, hj⟩, fun p' => ?_, fun _ _ => Iff.rfl⟩
    rw [List.append_nil]
    exact ⟨.inl, fun h => h.elim id hinner.of_prefix⟩
  | cons b q ih =>
    have hnone := hopen.2 b q rfl
    rw [List.length_cons] at hroom
    have hcap : a.nodes.length < Config.nodeCap := by omega
    have hwf := h.attach hj hnone hcap
    obtain ⟨hinner, hleaf⟩ := h.attach_paths hroot hp hj hnone hcap
    have hdescend : (a.attach j l r f b).descend root (p ++ [b]) = some a.nodes.length := by
      rw [h.descend_attach hroot hp hj hnone hcap, if_pos rfl]
    have hnode : (a.attach j l r f b).nodes[a.nodes.length]? = some (.internal none none 0) := by
      rw [Arena.attach, getElem?_attachChild (List.getElem?_eq_some_iff.1 hj).1, if_pos rfl]
    have hlen : (a.attach j l r f b).nodes.length = a.nodes.length + 1 := length_attachChild _ _ _ _ _ _
    obtain ⟨a', last, hwalk, hlen', hgrown⟩ := ih hwf hroot hdescend hnode (openEnd_bare q) (by omega)
    rw [List.append_assoc, List.singleton_append] at hgrown
    refine ⟨a', last, ?_, by rw [hlen', hlen, List.length_cons]; omega, { hgrown with
      inner := fun p' => ?_
      leaf := fun p' y => (hgrown.leaf p' y).trans (hleaf p' y) }⟩
    · rw [walkPath_cons_missing hj hnone, if_pos hcap, hwalk]
    · rw [hgrown.inner, hinner, or_assoc]
      refine or_congr_right ⟨fun h => h.elim (fun h => h ▸ ⟨q, by simp⟩) id, .inr⟩

/-! ### One insertion -/

/-- `a'` is `a` with one leaf more (R153): the leaf of `y` at the end of the code, internal nodes above it. -/
structure Inserted (a a' : Arena) (root : Nat) (code : List Bool) (y : Byte) : Prop where
  wf : a'.Wf
  root_eq : a'.root = some root
  inner : ∀ p, Inner a' root p ↔ (Inner a root p ∨ p <+: code) ∧ p ≠ code
  leaf : ∀ p z, LeafAt a' root p z ↔ (p = code ∧ z = y) ∨ LeafAt a root p z

/-- The last statement of R153, on a grown arena. -/
theorem Grown.insert {a a' : Arena} {root last f : Nat} {code : List Bool} (h : Grown a a' root code last)
    (hlast : a'.nodes[last]? = some (.internal none none f)) (y : Byte) :
    Inserted a (a'.setNode last (.leaf y f)) root code y := by
  have hnode := h.wf.nodeAt_setLeaf (y := y) h.root_eq h.descend_code hlast
  have hcode : a'.nodeAt root code = some (.internal none none f) := by
    simp [Arena.nodeAt, h.descend_code, hlast]
  refine ⟨h.wf.setLeaf hlast, h.root_eq, fun p => ?_, fun p z => ?_⟩
  · rw [← h.inner]
    simp only [Inner, innerAt_iff, hnode]
    split_ifs with hp
    · simp [hp]
    · simp [hp]
  · rw [← h.leaf]
    simp only [leafAt_iff, hnode]
    split_ifs with hp
    · simp [hp, hcode, eq_comm]
    · simp [hp]

/-- An insertion that meets no conflict (R153): within NODE_CAP it adds one leaf, past it it is E_CAPACITY. -/
theorem insertCode_openEnd {a : Arena} (h : a.Wf) {root : Nat} {l r : Option Nat} {p q : List Bool}
    (hroot : a.root = some root) (hp : InnerAt a root p l r) (hopen : OpenEnd l r q) (y : Byte) :
    (a.nodes.length + q.length ≤ Config.nodeCap →
      ∃ a', insertCode a y (p ++ q) = .ok a' ∧ a'.nodes.length = a.nodes.length + q.length ∧
        Inserted a a' root (p ++ q) y) ∧
    (Config.nodeCap < a.nodes.length + q.length →
      insertCode a y (p ++ q) = .error (.raise (.call .capacity))) := by
  obtain ⟨j, f, hdescend, hj⟩ := hp
  constructor
  · intro hroom
    obtain ⟨a', last, hwalk, hlen, hgrown⟩ := walkPath_grown h hroot hdescend hj hopen hroom
    obtain ⟨f', hlast⟩ := hgrown.bare
    refine ⟨a'.setNode last (.leaf y f'), ?_, by simpa [Arena.setNode] using hlen,
      hgrown.insert hlast y⟩
    simp only [insertCode, hroot, walkPath_descend hdescend, hwalk, bind, Except.bind, hlast,
      Arena.setNode, hgrown.root_eq]
  · intro hover
    simp only [insertCode, hroot, walkPath_descend hdescend, walkPath_capacity h.length_le hj hopen hover, bind,
      Except.bind]

/-- Settles O40: the code's existing part is followed, the rest allocated, and the last node becomes the leaf. -/
theorem treeInsertAddsExactlyOneLeaf : Obligations.TreeInsertAddsExactlyOneLeaf := by
  unfold Obligations.TreeInsertAddsExactlyOneLeaf
  intro s y r root p q l k hinv hf hr hroot hcode hp hnil hcons
  obtain ⟨-, -, -, -, -, harena, -⟩ := hinv
  have hwf : (Instr.treeInsert y r).WellFormed := registerProblem_of_lt hr
  obtain ⟨hfits, hover⟩ := insertCode_openEnd harena hroot hp ⟨hnil, hcons⟩ y
  rw [hcode]
  constructor
  · intro hroom
    obtain ⟨a, hins, hlen, h⟩ := hfits hroom
    refine ⟨a, exec_ok (t := { s with arena := a }) (l := []) hf hwf ?_, h.root_eq, hlen, h.inner,
      h.leaf⟩
    rw [Instr.rule, withoutResult_eq_ok, treeInsertStage, hcode, hins]
    exact ⟨rfl, rfl⟩
  · intro hfull
    refine exec_raise (r := .call .capacity) hf hwf ?_
    rw [Instr.rule, withoutResult_eq_raise, treeInsertStage, hcode, hover hfull]
    rfl

end Sys2Proof
end

section
/-! SUPPORT. TREE.FROM_TABLE (spec/41_codetree.md R155, R156): insertion after insertion the tree is the tree of the
entries inserted so far, and its nodes are counted by the prefixes of their codes. O42 is settled at the end. -/

namespace Sys2Proof

open Machine Claims

/-! ### The prefixes that an insertion adds -/

/-- The prefixes of `p ++ q` longer than `p`, one per bit of `q`. -/
def longerPrefixes : List Bool → List Bool → List (List Bool)
  | _, [] => []
  | p, b :: q => (p ++ [b]) :: longerPrefixes (p ++ [b]) q

@[simp] theorem length_longerPrefixes (p q : List Bool) : (longerPrefixes p q).length = q.length := by
  induction q generalizing p with
  | nil => rfl
  | cons b q ih => simp [longerPrefixes, ih]

theorem mem_longerPrefixes {p q x : List Bool} :
    x ∈ longerPrefixes p q ↔ ∃ b t, x = p ++ b :: t ∧ b :: t <+: q := by
  induction q generalizing p with
  | nil => simp [longerPrefixes]
  | cons c q ih =>
    simp only [longerPrefixes, List.mem_cons, ih]
    constructor
    · rintro (rfl | ⟨b, t, rfl, ht⟩)
      · exact ⟨c, [], rfl, by simp⟩
      · exact ⟨c, b :: t, by simp, List.cons_prefix_cons.2 ⟨rfl, ht⟩⟩
    · rintro ⟨b, t, rfl, ht⟩
      obtain ⟨rfl, htail⟩ := List.cons_prefix_cons.1 ht
      cases t with
      | nil => exact .inl rfl
      | cons d t => exact .inr ⟨d, t, by simp, htail⟩

theorem nodup_longerPrefixes (p q : List Bool) : (longerPrefixes p q).Nodup := by
  induction q generalizing p with
  | nil => exact List.nodup_nil
  | cons b q ih =>
    refine List.nodup_cons.2 ⟨fun h => ?_, ih _⟩
    obtain ⟨c, t, heq, -⟩ := mem_longerPrefixes.1 h
    simp at heq

/-! ### Trees of a table -/

theorem exists_mem_concat {α : Type} {l : List α} {y : α} {P : α → Prop} :
    (∃ z ∈ l ++ [y], P z) ↔ (∃ z ∈ l, P z) ∨ P y := by
  simp [or_and_right, exists_or]

theorem forall_mem_concat {α : Type} {l : List α} {y : α} {P : α → Prop} :
    (∀ z ∈ l ++ [y], P z) ↔ (∀ z ∈ l, P z) ∧ P y := by
  rw [List.forall_mem_append, List.forall_mem_singleton]

section Table

variable (code : Byte → List Bool)

/-- `p` is not empty and begins the code of an entry of `T`: a node below the root (R156). -/
def EntryPrefix (T : List Byte) (p : List Bool) : Prop := p ≠ [] ∧ ∃ y ∈ T, p <+: code y

/-- `a` is the tree of the entries `T` (R155, R156). -/
structure Built (T : List Byte) (a : Arena) : Prop where
  wf : a.Wf
  root_eq : a.root = some 0
  leaf : ∀ p y, LeafAt a 0 p y ↔ y ∈ T ∧ p = code y
  inner : ∀ p, Inner a 0 p ↔ (p = [] ∨ ∃ y ∈ T, p <+: code y) ∧ ∀ y ∈ T, p ≠ code y
  count : ∃ ps : List (List Bool), ps.Nodup ∧ a.nodes.length = ps.length + 1 ∧
    ∀ p, p ∈ ps ↔ EntryPrefix code T p

/-- The entries of `T` have more prefixes than NODE_CAP has nodes. -/
def TooManyNodes (T : List Byte) : Prop :=
  ∃ ps : List (List Bool), ps.Nodup ∧ (∀ p ∈ ps, EntryPrefix code T p) ∧ Config.nodeCap < ps.length + 1

/-- TREE.INIT's tree is that of no entry (R152). -/
theorem built_bareRoot : Built code [] bareRoot := by
  have hnode : ∀ p, bareRoot.nodeAt 0 p = if p = [] then some (.internal none none 0) else none := by
    intro p
    cases p with
    | nil => rfl
    | cons b p =>
      rw [Arena.nodeAt, Arena.descend_cons]
      cases b <;> rfl
  refine ⟨by decide, rfl, fun p y => ?_, fun p => ?_, [], List.nodup_nil, rfl, fun p => ?_⟩
  · rw [leafAt_iff, hnode]
    split_ifs <;> simp
  · simp only [Inner, innerAt_iff, hnode]
    split_ifs with hp <;> simp [hp]
  · simp [EntryPrefix]

variable {code}

/-- Every node of the tree of a table is the root or stands at the end of the beginning of a code. -/
theorem Built.prefix_of_descend {T : List Byte} {a : Arena} (h : Built code T a) {p : List Bool}
    (hp : p ≠ []) (hd : a.descend 0 p ≠ none) : EntryPrefix code T p := by
  obtain ⟨j, hj⟩ := Option.ne_none_iff_exists'.1 hd
  have hn := List.getElem?_eq_getElem (Arena.descend_lt hj).2
  cases hnode : a.nodes[j]'(Arena.descend_lt hj).2 with
  | leaf y f =>
    obtain ⟨hy, rfl⟩ := (h.leaf p y).1 ⟨j, f, hj, hnode ▸ hn⟩
    exact ⟨hp, y, hy, List.prefix_rfl⟩
  | internal l r f =>
    obtain ⟨hpre, -⟩ := (h.inner p).1 ⟨l, r, j, f, hj, hnode ▸ hn⟩
    exact ⟨hp, hpre.resolve_left hp⟩

/-- And every beginning of a code has its node. -/
theorem Built.descend_of_prefix {T : List Byte} {a : Arena} (h : Built code T a) {p : List Bool}
    (hp : EntryPrefix code T p) : a.descend 0 p ≠ none := by
  obtain ⟨-, y, hy, hpre⟩ := hp
  have hleaf := (h.leaf (code y) y).2 ⟨hy, rfl⟩
  obtain ⟨j, f, hj, -⟩ := hleaf
  obtain ⟨q, hq⟩ := hpre
  rw [← hq, Arena.descend_append] at hj
  intro hnone
  simp [hnone] at hj

/-- The longest part of a code that stands in an arena. -/
theorem exists_longest_descend (a : Arena) {root : Nat} (hroot : root < a.nodes.length) (c : List Bool) :
    ∃ p q, c = p ++ q ∧ a.descend root p ≠ none ∧
      ∀ b rest, q = b :: rest → a.descend root (p ++ [b]) = none := by
  induction c using List.reverseRecOn with
  | nil => exact ⟨[], [], rfl, by simp [Arena.descend_nil hroot], nofun⟩
  | append_singleton c b ih =>
    by_cases hex : a.descend root (c ++ [b]) = none
    · obtain ⟨p, q, rfl, hp, hq⟩ := ih
      refine ⟨p, q ++ [b], by simp, hp, fun b' rest heq => ?_⟩
      cases q with
      | nil =>
        obtain ⟨rfl, -⟩ : b = b' ∧ rest = [] := by simpa [eq_comm] using heq
        simpa using hex
      | cons d q =>
        obtain ⟨rfl, -⟩ : d = b' ∧ _ := by simpa using heq
        exact hq d q rfl
    · exact ⟨c ++ [b], [], by simp, hex, nofun⟩

/-- No code of `T` begins the code of `y`, nor the other way round (R17). -/
def Apart (code : Byte → List Bool) (T : List Byte) (y : Byte) : Prop :=
  ∀ z ∈ T, ¬ code z <+: code y ∧ ¬ code y <+: code z

/-- A code apart from the entries leaves their tree at an internal node without a child on its side (R156). -/
theorem Built.exists_openEnd {T : List Byte} {a : Arena} (h : Built code T a) {y : Byte}
    (hy : Apart code T y) :
    ∃ p q l r, code y = p ++ q ∧ InnerAt a 0 p l r ∧ OpenEnd l r q ∧
      ∀ b rest, q = b :: rest → ¬ EntryPrefix code T (p ++ [b]) := by
  obtain ⟨hroot, -⟩ := h.wf.root_spec h.root_eq
  obtain ⟨p, q, hcode, hp, hq⟩ := exists_longest_descend a hroot (code y)
  obtain ⟨j, hj⟩ := Option.ne_none_iff_exists'.1 hp
  have hn := List.getElem?_eq_getElem (Arena.descend_lt hj).2
  cases hnode : a.nodes[j]'(Arena.descend_lt hj).2 with
  | leaf z f =>
    obtain ⟨hz, rfl⟩ := (h.leaf p z).1 ⟨j, f, hj, hnode ▸ hn⟩
    exact absurd ⟨q, hcode.symm⟩ (hy z hz).1
  | internal l r f =>
    rw [hnode] at hn
    have hchild : ∀ b, a.descend 0 (p ++ [b]) = if b then r else l := fun b => by
      rw [h.wf.descend_concat, hj]
      simp [childOf, hn, Node.child]
    refine ⟨p, q, l, r, hcode, ⟨j, f, hj, hn⟩, ⟨fun hnil => ?_, fun b rest hcons => ?_⟩,
      fun b rest hcons he => ?_⟩
    · have hend : ∀ b, a.descend 0 (p ++ [b]) = none := fun b => by
        by_contra hne
        obtain ⟨-, z, hz, hpre⟩ := h.prefix_of_descend (by simp) hne
        refine (hy z hz).2 (.trans ?_ hpre)
        rw [hcode, hnil, List.append_nil]
        exact List.prefix_append p [b]
      exact ⟨(hchild false).symm.trans (hend false), (hchild true).symm.trans (hend true)⟩
    · rw [← hchild]
      exact hq b rest hcons
    · exact h.descend_of_prefix he (hq b rest hcons)

/-- The prefixes of one more code: the old ones and, below the part that stands, one per missing bit. -/
theorem Built.mem_prefixes_concat {T : List Byte} {a : Arena} (h : Built code T a) {y : Byte}
    {p q : List Bool} (hcode : code y = p ++ q) (hp : Inner a 0 p) (x : List Bool) :
    EntryPrefix code T x ∨ x ∈ longerPrefixes p q ↔ EntryPrefix code (T ++ [y]) x := by
  have hentry : EntryPrefix code (T ++ [y]) x ↔ EntryPrefix code T x ∨ x ≠ [] ∧ x <+: code y := by
    rw [EntryPrefix, EntryPrefix, exists_mem_concat, and_or_left]
  have hbelow : x ≠ [] → x <+: p → EntryPrefix code T x := fun hx hxp => by
    obtain ⟨l, r, j, f, hj, -⟩ := hp
    have hpne : p ≠ [] := fun hnil => hx (List.prefix_nil.1 (hnil ▸ hxp))
    obtain ⟨-, z, hz, hpre⟩ := h.prefix_of_descend hpne (by simp [hj])
    exact ⟨hx, z, hz, hxp.trans hpre⟩
  rw [hentry, mem_longerPrefixes, hcode]
  constructor
  · rintro (hx | ⟨b, t, rfl, ht⟩)
    · exact .inl hx
    · exact .inr ⟨by simp, (List.prefix_append_right_inj p).2 ht⟩
  · rintro (hx | ⟨hx, hpre⟩)
    · exact .inl hx
    · rcases List.prefix_or_prefix_of_prefix hpre (List.prefix_append p q) with hxp | ⟨t, rfl⟩
      · exact .inl (hbelow hx hxp)
      · cases t with
        | nil => exact .inl (hbelow hx (by simp))
        | cons b t => exact .inr ⟨b, t, rfl, (List.prefix_append_right_inj p).1 hpre⟩

/-- Inserting a code apart from the entries gives the tree of one entry more, or NODE_CAP is too small for it. -/
theorem Built.insert {T : List Byte} {a : Arena} (h : Built code T a) {y : Byte} (hy : Apart code T y) :
    (∃ a', insertCode a y (code y) = .ok a' ∧ Built code (T ++ [y]) a') ∨
      (insertCode a y (code y) = .error (.raise (.call .capacity)) ∧ TooManyNodes code (T ++ [y])) := by
  obtain ⟨p, q, l, r, hcode, hp, hfree, hmissing⟩ := h.exists_openEnd hy
  obtain ⟨ps, hnodup, hlen, hmem⟩ := h.count
  have hmem' : ∀ x, x ∈ ps ++ longerPrefixes p q ↔ EntryPrefix code (T ++ [y]) x := fun x => by
    rw [List.mem_append, hmem, h.mem_prefixes_concat hcode ⟨l, r, hp⟩]
  have hnodup' : (ps ++ longerPrefixes p q).Nodup := by
    refine List.nodup_append'.2 ⟨hnodup, nodup_longerPrefixes p q, fun x hx hx' => ?_⟩
    obtain ⟨-, z, hz, hpre⟩ := (hmem x).1 hx
    obtain ⟨b, t, rfl, rest, hrest⟩ := mem_longerPrefixes.1 hx'
    refine hmissing b (t ++ rest) hrest.symm ⟨by simp, z, hz, .trans ?_ hpre⟩
    exact (List.prefix_append_right_inj p).2 ⟨t, rfl⟩
  have hlen' : (ps ++ longerPrefixes p q).length + 1 = a.nodes.length + q.length := by
    simp [hlen]; omega
  obtain ⟨hfits, hover⟩ := insertCode_openEnd h.wf h.root_eq hp hfree y
  rw [← hcode] at hfits hover
  rcases Nat.lt_or_ge Config.nodeCap (a.nodes.length + q.length) with hcap | hcap
  · exact .inr ⟨hover hcap, _, hnodup', fun x hx => (hmem' x).1 hx, hlen' ▸ hcap⟩
  · obtain ⟨a', hins, hnodes, hi⟩ := hfits hcap
    refine .inl ⟨a', hins, hi.wf, hi.root_eq, fun x z => ?_, fun x => ?_, _, hnodup',
      hnodes.trans hlen'.symm, hmem'⟩
    · rw [hi.leaf, h.leaf, List.mem_append, List.mem_singleton]
      constructor
      · rintro (⟨rfl, rfl⟩ | ⟨hz, rfl⟩)
        · exact ⟨.inr rfl, rfl⟩
        · exact ⟨.inl hz, rfl⟩
      · rintro ⟨hz | rfl, rfl⟩
        · exact .inr ⟨hz, rfl⟩
        · exact .inl ⟨rfl, rfl⟩
    · rw [hi.inner, h.inner]
      rw [exists_mem_concat, forall_mem_concat]
      constructor
      · rintro ⟨⟨hx, hne⟩ | hx, hxy⟩
        · exact ⟨hx.imp_right .inl, hne, hxy⟩
        · exact ⟨.inr (.inr hx), fun z hz heq => (hy z hz).1 (heq ▸ hx), hxy⟩
      · rintro ⟨hx, hne, hxy⟩
        refine ⟨?_, hxy⟩
        rcases hx with rfl | hx | hx
        · exact .inr (List.nil_prefix)
        · exact .inl ⟨.inr hx, hne⟩
        · exact .inr hx

/-- The bits of each symbol's code. -/
def bitsOf (c : Byte → BitSeq) (y : Byte) : List Bool := (c y).bits

/-- The loop of R155: one insertion per symbol of the list. -/
def insertEntries (c : Byte → BitSeq) (l : List Byte) (s : State) : Res State :=
  l.foldlM (fun t sym => treeInsertStage sym (c sym) t) s

theorem insertEntries_cons (c : Byte → BitSeq) (y : Byte) (l : List Byte) (s : State) :
    insertEntries c (y :: l) s = treeInsertStage y (c y) s >>= insertEntries c l :=
  List.foldlM_cons

/-- All the insertions of R155, one entry after another. -/
theorem insertEntries_built (c : Byte → BitSeq) (s : State) (rest : List Byte) {T : List Byte} {a : Arena}
    (h : Built (bitsOf c) T a)
    (hapart : (T ++ rest).Pairwise fun z y => ¬ bitsOf c z <+: bitsOf c y ∧ ¬ bitsOf c y <+: bitsOf c z) :
    (∃ a', insertEntries c rest { s with arena := a } = .ok { s with arena := a' } ∧
        Built (bitsOf c) (T ++ rest) a') ∨
      (insertEntries c rest { s with arena := a } = .error (.raise (.call .capacity)) ∧
        TooManyNodes (bitsOf c) (T ++ rest)) := by
  induction rest generalizing T a with
  | nil => exact .inl ⟨a, rfl, by simpa using h⟩
  | cons y rest ih =>
    have hsplit : T ++ y :: rest = (T ++ [y]) ++ rest := by simp
    have hy : Apart (bitsOf c) T y := fun z hz =>
      (List.pairwise_append.1 hapart).2.2 z hz y List.mem_cons_self
    have hstage : treeInsertStage y (c y) { s with arena := a } =
        (insertCode a y (bitsOf c y)).map fun a' => { s with arena := a' } := by
      rw [treeInsertStage, bitsOf]
      cases insertCode a y (c y).bits <;> rfl
    rw [insertEntries_cons, hstage]
    rcases h.insert hy with ⟨a', hins, h'⟩ | ⟨hins, ps, hnodup, hps, hlen⟩
    · rw [hins, hsplit]
      exact ih h' (hsplit ▸ hapart)
    · rw [hins]
      refine .inr ⟨rfl, ps, hnodup, fun p hp => ?_, hlen⟩
      obtain ⟨hne, z, hz, hpre⟩ := hps p hp
      exact ⟨hne, z, hsplit ▸ List.mem_append_left _ hz, hpre⟩

end Table

/-- A table of R17 as a list of entries no two of which conflict. -/
theorem Machine.State.alphabet_apart {s : State} (h : PrefixFree s) :
    s.alphabet.Pairwise fun z y =>
      ¬ bitsOf s.codeOf z <+: bitsOf s.codeOf y ∧ ¬ bitsOf s.codeOf y <+: bitsOf s.codeOf z := by
  refine (State.alphabet_nodup s).imp_of_mem fun hz hy hne => ?_
  rw [State.mem_alphabet] at hz hy
  exact ⟨h _ _ hz hy hne, h _ _ hy hz (Ne.symm hne)⟩

theorem entryPrefix_alphabet {s : State} {p : List Bool} :
    EntryPrefix (bitsOf s.codeOf) s.alphabet p ↔
      p ≠ [] ∧ ∃ y : Byte, s.validOf y = true ∧ p <+: (s.codeOf y).bits := by
  simp [EntryPrefix, bitsOf]

/-- NODE_CAP is too small for the table's tree exactly when its codes have too many beginnings (R36). -/
theorem tooManyNodes_alphabet_iff {s : State} :
    TooManyNodes (bitsOf s.codeOf) s.alphabet ↔ ¬ NodesFit s := by
  simp only [TooManyNodes, entryPrefix_alphabet, NodesFit, Config.nodeCap, not_forall, exists_prop,
    Nat.not_le]

/-- The tree of a table has a node for every beginning of a code, so NODE_CAP was large enough. -/
theorem Built.not_tooManyNodes {code : Byte → List Bool} {T : List Byte} {a : Arena} (h : Built code T a) :
    ¬ TooManyNodes code T := by
  rintro ⟨ps, hnodup, hps, hlen⟩
  obtain ⟨ps', -, hnodes, hmem⟩ := h.count
  have hsub : ps ⊆ ps' := fun p hp => (hmem p).2 (hps p hp)
  have hle := (List.subperm_of_subset hnodup hsub).length_le
  have hcap := h.wf.length_le
  omega

/-- TREE.FROM_TABLE on a table of R17 (R155): the tree of its entries, or E_CAPACITY. -/
theorem treeFromTableStage_of_prefixFree {s : State} (h : PrefixFree s) :
    (∃ a, treeFromTableStage s = .ok { s with arena := a } ∧ Built (bitsOf s.codeOf) s.alphabet a) ∨
      (treeFromTableStage s = .error (.raise (.call .capacity)) ∧
        TooManyNodes (bitsOf s.codeOf) s.alphabet) :=
  insertEntries_built s.codeOf s s.alphabet (T := []) (built_bareRoot _) (State.alphabet_apart h)

/-- Settles O42: insertion after insertion the tree is that of the entries so far, and NODE_CAP stops it exactly
when the codes have too many beginnings. -/
theorem fromTableRebuildsTheTable : Obligations.FromTableRebuildsTheTable := by
  unfold Obligations.FromTableRebuildsTheTable
  intro s _ hf hfree
  rcases treeFromTableStage_of_prefixFree hfree with ⟨a, hstage, h⟩ | ⟨hstage, hmany⟩
  · constructor
    · intro _
      have hexec := exec_ok (i := .treeFromTable) hf rfl (withoutResult_eq_ok.2 ⟨hstage, rfl⟩)
      refine ⟨a, hexec, h.root_eq, fun p y => ?_, fun p => ?_, ?_⟩
      · simpa [bitsOf] using h.leaf p y
      · simpa [Inner, bitsOf] using h.inner p
      · simpa only [entryPrefix_alphabet] using h.count
    · intro hnot
      exact absurd (tooManyNodes_alphabet_iff.2 hnot) h.not_tooManyNodes
  · constructor
    · intro hfits
      exact absurd hfits (tooManyNodes_alphabet_iff.1 hmany)
    · intro _
      exact ⟨_, exec_raise (i := .treeFromTable) hf rfl (withoutResult_eq_raise.2 hstage), rfl, hf⟩

end Sys2Proof
end

section
/-! SUPPORT. The invariant of the state (Safety.lean; spec/10_state.md R22 to R43), one lemma per piece of state that
an update replaces. O2 is settled at the end. -/

namespace Sys2Proof

open Machine

/-! ### Values that a register may hold -/

/-- A register value of the invariant: well-formed and within BS_CAP (R22, R25). -/
def BitSeq.Fits (caps : Capacities) (v : BitSeq) : Prop :=
  v.Wf ∧ capAllows caps.bsCap v.size = true

theorem BitSeq.fits_ofBits {caps : Capacities} {l : List Bool} (h : capAllows caps.bsCap l.length = true) :
    (BitSeq.ofBits l).Fits caps :=
  ⟨BitSeq.wf_ofBits l, by rwa [BitSeq.size_ofBits]⟩

theorem capAllows_zero (cap : Option Nat) : capAllows cap 0 = true := by
  cases cap <;> simp [capAllows]

theorem BitSeq.fits_empty (caps : Capacities) : BitSeq.empty.Fits caps :=
  ⟨by decide, capAllows_zero _⟩

/-- POP never makes a value longer. -/
theorem BitSeq.Fits.pop {caps : Capacities} {v : BitSeq} (h : v.Fits caps) : v.pop.Fits caps := by
  obtain ⟨hwf, hcap⟩ := h
  rw [hwf.pop_eq]
  exact BitSeq.fits_ofBits (capAllows_mono (by simp) hcap)

theorem fits_drawSeq (caps : Capacities) (k r : Nat) : (drawSeq caps k r).Fits caps :=
  BitSeq.fits_ofBits (capAllows_capTake _ _)

namespace Machine

theorem pushBitCap_fits {caps : Capacities} {v w : BitSeq} {b : Bool} (hv : v.Fits caps)
    (h : pushBitCap caps v b = .ok w) : w.Fits caps := by
  obtain ⟨hcap, rfl⟩ := pushBitCap_eq_ok.1 h
  rw [hv.1.pushBit_eq]
  exact BitSeq.fits_ofBits (by simpa using hcap)

theorem pushByteCap_fits {caps : Capacities} {v w : BitSeq} {y : Byte} {n : Nat} (hv : v.Fits caps)
    (hn : n ≤ 8) (h : pushByteCap caps v y n = .ok w) : w.Fits caps := by
  obtain ⟨hcap, rfl⟩ := pushByteCap_eq_ok.1 h
  rw [hv.1.pushByte_eq y hn]
  exact BitSeq.fits_ofBits (by simpa using hcap)

theorem pushSeqCap_fits {caps : Capacities} {v o w : BitSeq} (hv : v.Fits caps) (ho : o.Fits caps)
    (h : pushSeqCap caps v o = .ok w) : w.Fits caps := by
  obtain ⟨hcap, rfl⟩ := pushSeqCap_eq_ok.1 h
  rw [hv.1.pushSeq_eq ho.1]
  exact BitSeq.fits_ofBits (by simpa using hcap)

/-! ### Updates of the state -/

section Updates

variable {s : State} (h : s.Inv)
include h

theorem State.Inv.fits_reg (r : Nat) : (s.reg r).Fits s.caps := by
  obtain ⟨-, hregs, -⟩ := h
  rcases Nat.lt_or_ge r 263 with hr | hr
  · exact hregs ⟨r, hr⟩
  · rw [State.reg_of_ge s hr]
    exact BitSeq.fits_empty _

theorem State.Inv.fits_codeOf (y : Byte) : (s.codeOf y).Fits s.caps := by
  have : s.reg y.toNat = s.codeOf y := dif_pos y.isLt
  exact this ▸ h.fits_reg y.toNat

/-- A register written with a value that fits. -/
theorem State.Inv.setReg {v : BitSeq} (hv : v.Fits s.caps) (r : Nat) : (s.setReg r v).Inv := by
  have hregs : (s.setReg r v).RegsWf := fun q => by
    rw [State.setReg_caps]
    by_cases hq : q.val = r
    · rw [← hq, State.reg_setReg_same s q v q.isLt]
      exact hv
    · rw [State.reg_setReg_of_ne s r q v hq]
      exact h.fits_reg q
  obtain ⟨hcaps, -, hfreq, hsort, hseq, harena, hta, hbuf, hlatch⟩ := h
  rw [State.setReg_frame] at hregs ⊢
  exact ⟨hcaps, hregs, hfreq, hsort, hseq, harena, hta, hbuf, hlatch⟩

/-- The whole code table written with values that fit. -/
theorem State.Inv.withTable {code : Vector BitSeq 256} (valid : Vector Bool 256)
    (hcode : ∀ (i : Nat) (hi : i < 256), code[i].Fits s.caps) :
    State.Inv { s with code := code, codeValid := valid } := by
  have hregs : State.RegsWf { s with code := code, codeValid := valid } := fun q => by
    by_cases hq : q.val < 256
    · have : State.reg { s with code := code, codeValid := valid } q = code[q.val] := dif_pos hq
      rw [this]
      exact hcode q hq
    · have : State.reg { s with code := code, codeValid := valid } q = s.reg q :=
        State.reg_congr (fun hlt => absurd hlt hq) (fun _ => rfl) (fun _ => rfl) (fun _ => rfl) fun _ => rfl
      rw [this]
      exact h.fits_reg q
  obtain ⟨hcaps, -, hfreq, hsort, hseq, harena, hta, hbuf, hlatch⟩ := h
  exact ⟨hcaps, hregs, hfreq, hsort, hseq, harena, hta, hbuf, hlatch⟩

theorem State.Inv.setCode {v : BitSeq} (hv : v.Fits s.caps) (y : Byte) : (s.setCode y v).Inv := by
  have : s.setCode y v =
      { s.setReg y.toNat v with codeValid := s.codeValid.set y.toNat true y.isLt } := by
    rw [State.setReg, dif_pos y.isLt]
    rfl
  rw [this]
  exact h.setReg hv _

theorem State.Inv.clearTable : s.clearTable.Inv :=
  h.withTable _ fun i hi => by
    rw [Vector.getElem_replicate]
    exact BitSeq.fits_empty _

theorem State.Inv.withArena {a : Arena} (ha : a.Wf) : State.Inv { s with arena := a } := by
  obtain ⟨hcaps, hregs, hfreq, hsort, hseq, -, hta, hbuf, hlatch⟩ := h
  exact ⟨hcaps, hregs, hfreq, hsort, hseq, ha, hta, hbuf, hlatch⟩

theorem State.Inv.withSorter {sort : List SortEntry} {seq : Nat} (hsort : SorterWf sort)
    (hseq : seq < 2 ^ 64) : State.Inv { s with sort := sort, seq := seq } := by
  obtain ⟨hcaps, hregs, hfreq, -, -, harena, hta, hbuf, hlatch⟩ := h
  exact ⟨hcaps, hregs, hfreq, hsort, hseq, harena, hta, hbuf, hlatch⟩

theorem State.Inv.withFreq {freq : Vector Nat 256}
    (hfreq : s.caps.inCap.isSome = true → ∀ (i : Nat) (hi : i < 256), freq[i] < 2 ^ 64) :
    State.Inv { s with freq := freq } := by
  have hall : State.FreqWf { s with freq := freq } := fun hcap => by
    rw [List.all_eq_true]
    intro x hx
    obtain ⟨i, hi, rfl⟩ := List.getElem_of_mem hx
    simpa using hfreq hcap i (by simpa using hi)
  obtain ⟨hcaps, hregs, -, hsort, hseq, harena, hta, hbuf, hlatch⟩ := h
  exact ⟨hcaps, hregs, hall, hsort, hseq, harena, hta, hbuf, hlatch⟩

theorem State.Inv.withTa {n : Nat} (sym len : Vector Byte 256) (hn : n ≤ 256) :
    State.Inv { s with taN := n, taSym := sym, taLen := len } := by
  obtain ⟨hcaps, hregs, hfreq, hsort, hseq, harena, -, hbuf, hlatch⟩ := h
  exact ⟨hcaps, hregs, hfreq, hsort, hseq, harena, hn, hbuf, hlatch⟩

theorem State.Inv.withIn {l : List Byte} (hl : capAllows s.caps.inCap l.length = true) :
    State.Inv { s with inBuf := l } := by
  obtain ⟨hcaps, hregs, hfreq, hsort, hseq, harena, hta, ⟨-, hout, hblob⟩, hlatch⟩ := h
  exact ⟨hcaps, hregs, hfreq, hsort, hseq, harena, hta, ⟨hl, hout, hblob⟩, hlatch⟩

theorem State.Inv.withOut {l : List Byte} (hl : capAllows s.caps.outCap l.length = true) :
    State.Inv { s with outBuf := l } := by
  obtain ⟨hcaps, hregs, hfreq, hsort, hseq, harena, hta, ⟨hin, -, hblob⟩, hlatch⟩ := h
  exact ⟨hcaps, hregs, hfreq, hsort, hseq, harena, hta, ⟨hin, hl, hblob⟩, hlatch⟩

theorem State.Inv.withBlob {l : List Byte} (hl : capAllows s.caps.blobCap l.length = true) :
    State.Inv { s with blob := l } := by
  obtain ⟨hcaps, hregs, hfreq, hsort, hseq, harena, hta, ⟨hin, hout, -⟩, hlatch⟩ := h
  exact ⟨hcaps, hregs, hfreq, hsort, hseq, harena, hta, ⟨hin, hout, hl⟩, hlatch⟩

/-- The flags replaced by flags that agree. -/
theorem State.Inv.withFlags {t : State} (ht : s.SameButFlags t) (hlatch : t.LatchWf) : t.Inv := by
  obtain ⟨hcaps, hregs, hfreq, hsort, hseq, harena, hta, hbuf, -⟩ := h
  rw [ht]
  exact ⟨hcaps, hregs, hfreq, hsort, hseq, harena, hta, hbuf, ht ▸ hlatch⟩

theorem State.Inv.faultCause_eq_none (hf : s.fault = false) : s.faultCause = none := by
  obtain ⟨-, -, -, -, -, -, -, -, hlatch⟩ := h
  unfold State.LatchWf at hlatch
  split at hlatch
  · simp [hf] at hlatch
  · assumption

/-- The epilogue of a command that reached its end (R227). -/
theorem State.Inv.finish (hf : s.fault = false) (l : List Byte) : (s.finish l).Inv :=
  h.withFlags rfl (by simp [State.LatchWf, h.faultCause_eq_none hf, hf])

/-- A raise over an unlatched state (R224, R225). -/
theorem State.Inv.raise (hf : s.fault = false) (r : Raise) : (s.raise r).Inv := by
  have hcause := h.faultCause_eq_none hf
  cases r with
  | call e =>
    exact h.withFlags rfl (by simp [State.LatchWf, State.raise, State.flagCallError, hcause, hf])
  | fault f =>
    exact h.withFlags rfl (by simp [State.LatchWf, State.raise, State.flagFault, hf])

/-- A refusal by a latched core (R226). -/
theorem State.Inv.refuse (hf : s.fault = true) : s.refuse.Inv := by
  refine h.withFlags rfl ?_
  obtain ⟨-, -, -, -, -, -, -, -, hlatch⟩ := h
  unfold State.LatchWf at hlatch ⊢
  simp only [State.refuse_faultCause, State.refuse_fault, State.refuse_status]
  split at hlatch
  · simp_all
  · simp [hf] at hlatch

end Updates

/-- HostReset, whatever legal capacities the core has (R49, R9). -/
theorem State.inv_hostReset {s : State} (hcaps : s.caps.Legal) : s.hostReset.Inv := by
  refine ⟨hcaps, fun r => ?_, fun _ => ?_, ?_, ?_, ?_, ?_, ⟨?_, ?_, ?_⟩, ?_⟩
  · have : s.hostReset.reg r = .empty :=
      (State.reg_congr (s := State.reset) (fun _ => rfl) (fun _ => rfl) (fun _ => rfl) (fun _ => rfl)
        fun _ => rfl).trans (State.reg_reset r)
    rw [this]
    exact BitSeq.fits_empty _
  · rw [State.hostReset_freq, List.all_eq_true]
    unfold State.reset
    rw [Vector.toList_replicate]
    intro x hx
    simp [List.eq_of_mem_replicate hx]
  · exact (by decide : SorterWf [])
  · exact (by decide : 0 < 2 ^ 64)
  · exact (by decide : Arena.Wf ⟨[], none⟩)
  · exact Nat.zero_le 256
  · exact capAllows_zero _
  · exact capAllows_zero _
  · exact capAllows_zero _
  · exact ⟨rfl, fun _ _ => ⟨Status.noConfusion, Status.noConfusion⟩⟩

end Machine

/-- Settles O2: the reset state is HostReset's, and unbounded capacities are legal. -/
theorem resetStateSatisfiesTheInvariant : Obligations.ResetStateSatisfiesTheInvariant := by
  unfold Obligations.ResetStateSatisfiesTheInvariant
  rw [← State.hostReset_reset]
  exact State.inv_hostReset (s := State.reset) (by decide)

end Sys2Proof
end

section
/-! SUPPORT. TREE.BUILD's two loops (spec/41_codetree.md R146) keep the arena hierarchical: the nodes of the sorter's
entries and the child indexes are distinct allocated nodes throughout. -/

namespace Sys2Proof

theorem insertEntry_perm (e : SortEntry) (l : List SortEntry) : (insertEntry e l).Perm (e :: l) := by
  induction l with
  | nil => exact .refl _
  | cons x rest ih =>
    rw [insertEntry]
    split_ifs
    · exact .refl _
    · exact (ih.cons x).trans (.swap e x rest)

/-- The nodes that have a place already: in the sorter, or under a parent. -/
def Builder.placed (b : Builder) : List Nat := b.sort.map SortEntry.node ++ b.nodes.flatMap Node.children

/-- What both loops of R146 keep: every node has one place, SEQ counts the nodes, and their number is bounded. -/
structure Builder.Sound (b : Builder) (bound : Nat) : Prop where
  nodup : b.placed.Nodup
  lt : ∀ c ∈ b.placed, c < b.nodes.length
  seq_eq : b.seq = b.nodes.length
  bound_le : b.nodes.length + b.sort.length ≤ bound

/-- One allocation (R34, R143): the new node takes its children out of the sorter and its own place there. -/
theorem Builder.Sound.add {b : Builder} {m m' : Nat} (h : b.Sound m) {rest : List SortEntry} {n : Node}
    (hperm : (b.sort.map SortEntry.node).Perm (n.children ++ rest.map SortEntry.node)) (freq : Nat)
    (hbound : b.nodes.length + rest.length + 2 ≤ m') : (({ b with sort := rest }).add n freq).Sound m' := by
  have hplaced : ((({ b with sort := rest }).add n freq).placed).Perm (b.nodes.length :: b.placed) := by
    have hsort := (insertEntry_perm ⟨freq, b.seq, b.nodes.length⟩ rest).map SortEntry.node
    simp only [Builder.placed, Builder.add, List.flatMap_append, List.flatMap_singleton]
    refine (hsort.append_right _).trans ?_
    rw [List.map_cons, List.cons_append]
    refine .cons _ (.trans ?_ (hperm.append_right _).symm)
    rw [← List.append_assoc, List.append_assoc n.children]
    exact List.perm_append_comm
  have hfresh : b.nodes.length ∉ b.placed := fun hc => Nat.lt_irrefl _ (h.lt _ hc)
  refine ⟨hplaced.nodup_iff.2 (List.nodup_cons.2 ⟨hfresh, h.nodup⟩), fun c hc => ?_, ?_, ?_⟩
  · rw [Builder.add, List.length_append]
    rcases List.mem_cons.1 (hplaced.mem_iff.1 hc) with rfl | hc
    · simp
    · exact Nat.lt_succ_of_lt (h.lt c hc)
  · simp [Builder.add, h.seq_eq]
  · have := (insertEntry_perm ⟨freq, b.seq, b.nodes.length⟩ rest).length_eq
    simp only [Builder.add, List.length_append, List.length_cons, List.length_nil] at this ⊢
    omega

/-- One turn of the first loop of R146: a leaf for a symbol of positive frequency. -/
def Builder.addLeaf (b : Builder) (x : Nat × Nat) : Builder :=
  if 0 < x.1 then b.add (.leaf (BitVec.ofNat 8 x.2) x.1) x.1 else b

theorem Builder.leaves_eq (freq : List Nat) :
    Builder.leaves freq = freq.zipIdx.foldl Builder.addLeaf ⟨[], [], 0⟩ := rfl

theorem Builder.Sound.addLeaf {b : Builder} {m : Nat} (h : b.Sound m) (x : Nat × Nat) :
    (b.addLeaf x).Sound (m + 2) := by
  have hbound := h.bound_le
  unfold Builder.addLeaf
  split_ifs
  · exact h.add (rest := b.sort) (.refl _) _ (by omega)
  · exact { h with bound_le := by omega }

/-- The first loop: at most one leaf per symbol. -/
theorem Builder.Sound.addLeaves {b : Builder} {m : Nat} (h : b.Sound m) (l : List (Nat × Nat)) :
    (l.foldl Builder.addLeaf b).Sound (m + 2 * l.length) := by
  induction l generalizing b m with
  | nil => exact h
  | cons x l ih =>
    rw [List.foldl_cons, List.length_cons, show m + 2 * (l.length + 1) = m + 2 + 2 * l.length by omega]
    exact ih (h.addLeaf x)

theorem Builder.sound_leaves (freq : Vector Nat 256) : (Builder.leaves freq.toList).Sound 512 := by
  have hempty : Builder.Sound ⟨[], [], 0⟩ 0 := ⟨List.nodup_nil, nofun, rfl, Nat.le_refl 0⟩
  simpa [Builder.leaves_eq] using hempty.addLeaves freq.toList.zipIdx

/-- The second loop: each turn takes two entries and puts one back. -/
theorem Builder.Sound.merge {b : Builder} {m : Nat} (h : b.Sound m) (fuel : Nat) :
    (Builder.merge fuel b).Sound m := by
  induction fuel generalizing b with
  | zero => exact h
  | succ fuel ih =>
    rw [Builder.merge]
    split
    · next x y rest hsort =>
      have hbound := h.bound_le
      rw [hsort] at hbound
      refine ih (h.add (by simp [hsort, Node.children]) _ ?_)
      simp only [List.length_cons] at hbound
      omega
    · exact h

theorem Builder.length_sort_merge {fuel : Nat} {b : Builder} (h : b.sort.length ≤ fuel + 1) :
    (Builder.merge fuel b).sort.length ≤ 1 := by
  induction fuel generalizing b with
  | zero => exact h
  | succ fuel ih =>
    rw [Builder.merge]
    split
    · next x y rest hsort =>
      refine ih ?_
      rw [Builder.add, (insertEntry_perm _ _).length_eq]
      simp only [hsort, List.length_cons] at h ⊢
      omega
    · next hno =>
      match hsort : b.sort with
      | [] => simp
      | [x] => simp
      | x :: y :: rest => exact absurd hsort (hno x y rest)

namespace Machine

/-- TREE.BUILD leaves a hierarchical arena, an empty sorter and SEQ within 64 bits (R146). -/
theorem treeBuildStage_inv {s t : State} (h : s.Inv) (hs : treeBuildStage s = .ok t) : t.Inv := by
  have hsound := (Builder.sound_leaves s.freq).merge (Builder.leaves s.freq.toList).sort.length
  have hlen := Builder.length_sort_merge (Nat.le_succ (Builder.leaves s.freq.toList).sort.length)
  rw [treeBuildStage] at hs
  rw [← Builder.run] at hsound hlen
  generalize Builder.run s.freq.toList = b at hs hsound hlen
  obtain ⟨hnodup, hlt, hseq, hbound⟩ := hsound
  have hseq' : b.seq < 2 ^ 64 := by omega
  have hcap : b.nodes.length ≤ Config.nodeCap := by rw [Config.nodeCap]; omega
  obtain ⟨-, hchildren, hapart⟩ := List.nodup_append'.1 hnodup
  have hwf : ∀ root, (∀ r, root = some r → r ∈ b.sort.map SortEntry.node) → Arena.Wf ⟨b.nodes, root⟩ :=
    fun root hroot => ⟨hcap, fun c hc => hlt c (List.mem_append_right _ hc), hchildren,
      (Arena.root_wf_iff _).2 fun r hr => ⟨hlt r (List.mem_append_left _ (hroot r hr)), fun hc =>
        hapart (hroot r hr) hc⟩⟩
  split at hs
  · cases hs
    exact (h.withArena (hwf none nofun)).withSorter (by decide) hseq'
  · next e rest hsort =>
    cases hs
    have hrest : rest = [] := by
      rw [hsort] at hlen
      exact List.length_eq_zero_iff.1 (by simpa using hlen)
    subst hrest
    refine (h.withArena (hwf (some e.node) fun r hr => ?_)).withSorter (by decide) hseq'
    cases hr
    simp [hsort]

end Machine

end Sys2Proof
end

section
/-! SUPPORT. Every stage, every draw of R229 and so every step keeps the invariant. O3 is settled at the end. -/

namespace Sys2Proof

open Machine

namespace Machine

/-! ### Loops -/

/-- What one turn of a loop keeps, the loop keeps, when it answers. -/
theorem foldlM_keeps {α β : Type} {f : β → α → Res β} {P : β → Prop}
    (hf : ∀ b a b', P b → f b a = .ok b' → P b') (l : List α) {b b' : β} (hb : P b)
    (h : l.foldlM f b = .ok b') : P b' := by
  induction l generalizing b with
  | nil =>
    cases h
    exact hb
  | cons a l ih =>
    rw [List.foldlM_cons] at h
    obtain ⟨m, hm, h⟩ := res_bind_ok.1 h
    exact ih (hf b a m hb hm) h

/-! ### The stages of ENCODE -/

theorem getElem_countSymbol_le (freq : Vector Nat 256) (sym : Byte) (i : Nat) (hi : i < 256) :
    (countSymbol freq sym)[i] ≤ freq[i] + 1 := by
  rw [countSymbol, Vector.getElem_set]
  split_ifs with h
  · subst h
    exact Nat.le_refl _
  · exact Nat.le_succ _

theorem getElem_foldl_countSymbol_le (l : List Byte) (freq : Vector Nat 256) (i : Nat) (hi : i < 256) :
    (l.foldl countSymbol freq)[i] ≤ freq[i] + l.length := by
  induction l generalizing freq with
  | nil => exact Nat.le_refl _
  | cons sym l ih =>
    have hstep := getElem_countSymbol_le freq sym i hi
    have hrest := ih (countSymbol freq sym)
    rw [List.foldl_cons, List.length_cons]
    omega

variable {s t : State}

/-- FREQ.COUNT counts at most IN_LEN, which a finite IN_CAP keeps within 64 bits (R9, R141). -/
theorem freqCountStage_inv (h : s.Inv) (hs : freqCountStage s = .ok t) : t.Inv := by
  cases hs
  refine h.withFreq fun hfinite i hi => ?_
  obtain ⟨⟨hin, -⟩, -, -, -, -, -, -, ⟨hbuf, -⟩, -⟩ := h
  obtain ⟨c, hc⟩ := Option.isSome_iff_exists.1 hfinite
  have hcount := getElem_foldl_countSymbol_le s.inBuf (Vector.replicate 256 0) i hi
  rw [Vector.getElem_replicate] at hcount
  simp only [hc, Option.all_some, capAllows, decide_eq_true_eq] at hin hbuf
  omega

theorem visitChild_inv {walk : Nat → State → Res State} {b : Bool} {c : Option Nat}
    (hw : ∀ i s t, s.Inv → walk i s = .ok t → t.Inv) (h : s.Inv) (hs : visitChild walk b c s = .ok t) :
    t.Inv := by
  cases c with
  | none =>
    cases hs
    exact h
  | some c =>
    obtain ⟨p, hp, hs⟩ := res_bind_ok.1 hs
    obtain ⟨u, hu, hs⟩ := res_bind_ok.1 hs
    cases hs
    have hu := hw c _ u (h.setReg (pushBitCap_fits (h.fits_reg 256) hp) 256) hu
    exact hu.setReg (hu.fits_reg 256).pop 256

theorem deriveWalk_inv (nodes : List Node) (fuel : Nat) :
    ∀ i s t, s.Inv → deriveWalk nodes fuel i s = .ok t → t.Inv := by
  induction fuel with
  | zero =>
    intro i s t _ hs
    rw [deriveWalk] at hs
    cases hs
  | succ fuel ih =>
    intro i s t h hs
    rw [deriveWalk] at hs
    split at hs
    · cases hs
    · cases hs
      exact h.setCode (h.fits_reg 256) _
    · obtain ⟨m, hm, hs⟩ := res_bind_ok.1 hs
      exact visitChild_inv ih (visitChild_inv ih h hm) hs

/-- TABLE.DERIVE writes paths, each pushed within BS_CAP (R150). -/
theorem tableDeriveStage_inv (h : s.Inv) (hs : tableDeriveStage s = .ok t) : t.Inv := by
  have hclear : State.Inv { s.clearTable with path := .empty } :=
    h.clearTable.setReg (BitSeq.fits_empty _) 256
  rw [tableDeriveStage] at hs
  split at hs
  · cases hs
    exact hclear
  · exact deriveWalk_inv _ _ _ _ _ hclear hs

theorem encodeSymbol_fits (h : s.Inv) {data data' : BitSeq} {sym : Byte} (hd : data.Fits s.caps)
    (hs : encodeSymbol s data sym = .ok data') : data'.Fits s.caps := by
  obtain ⟨-, -, hs⟩ := res_bind_ok.1 hs
  split_ifs at hs
  · exact pushBitCap_fits hd hs
  · exact pushSeqCap_fits hd (h.fits_codeOf sym) hs

theorem dataEncodeStage_inv (h : s.Inv) (hs : dataEncodeStage s = .ok t) : t.Inv := by
  obtain ⟨data, hdata, hs⟩ := res_bind_ok.1 hs
  cases hs
  have hfits := foldlM_keeps (P := BitSeq.Fits s.caps) (fun _ _ _ hd => encodeSymbol_fits h hd) _
    (BitSeq.fits_empty _) hdata
  exact h.setReg hfits 258

/-- HEF.SERIALIZE replaces BLOB by a container within BLOB_CAP (R181, R183). -/
theorem hefSerializeStage_inv (h : s.Inv) (hs : hefSerializeStage s = .ok t) : t.Inv := by
  obtain ⟨-, -, hs⟩ := res_bind_ok.1 hs
  obtain ⟨codes, hcodes, hs⟩ := res_bind_ok.1 hs
  obtain ⟨buf, -, hs⟩ := res_bind_ok.1 hs
  obtain ⟨_, hcap, hs⟩ := res_bind_ok.1 hs
  cases hs
  have hfits := foldlM_keeps (P := BitSeq.Fits s.caps)
    (fun _ sym _ hacc => pushSeqCap_fits hacc (h.fits_codeOf sym)) _ (BitSeq.fits_empty _) hcodes
  have hta := h.withTa (treeArray s.alphabet)
    (treeArray (s.alphabet.map fun sym => BitVec.ofNat 8 (s.codeOf sym).size)) (State.alphabet_length_le s)
  exact (hta.setReg hfits 257).withBlob (ensure_eq_ok.1 hcap)

theorem encodeStage_inv (h : s.Inv) (hs : encodeStage s = .ok t) : t.Inv := by
  obtain ⟨a, ha, hs⟩ := res_bind_ok.1 hs
  obtain ⟨b, hb, hs⟩ := res_bind_ok.1 hs
  obtain ⟨c, hc, hs⟩ := res_bind_ok.1 hs
  obtain ⟨d, hd, hs⟩ := res_bind_ok.1 hs
  have htree := treeBuildStage_inv (freqCountStage_inv h ha) hb
  exact hefSerializeStage_inv (dataEncodeStage_inv (tableDeriveStage_inv htree hc) hd) hs

/-! ### The stages of DECODE -/

theorem readBits_length {blob : List Byte} {cur k c : Nat} {bits : List Bool}
    (h : readBits blob cur k = .ok (bits, c)) : bits.length = k := by
  obtain ⟨x, -, h⟩ := res_bind_ok.1 h
  cases h
  exact length_unpackWords _ k

/-- HEF.DESERIALIZE checks every count before it reads so many bits (R185, R228). -/
theorem hefDeserializeStage_inv (h : s.Inv) (hs : hefDeserializeStage s = .ok t) : t.Inv := by
  obtain ⟨⟨alphabet, _⟩, -, hs⟩ := res_bind_ok.1 hs
  obtain ⟨_, halphabet, hs⟩ := res_bind_ok.1 hs
  obtain ⟨⟨syms, _⟩, -, hs⟩ := res_bind_ok.1 hs
  obtain ⟨⟨lens, _⟩, -, hs⟩ := res_bind_ok.1 hs
  obtain ⟨_, htotal, hs⟩ := res_bind_ok.1 hs
  obtain ⟨⟨codeBits, _⟩, hcodes, hs⟩ := res_bind_ok.1 hs
  obtain ⟨⟨whole, _⟩, -, hs⟩ := res_bind_ok.1 hs
  obtain ⟨⟨rem, _⟩, -, hs⟩ := res_bind_ok.1 hs
  obtain ⟨-, -, hs⟩ := res_bind_ok.1 hs
  obtain ⟨_, hcount, hs⟩ := res_bind_ok.1 hs
  obtain ⟨⟨dataBits, cur⟩, hdata, hs⟩ := res_bind_ok.1 hs
  cases hs
  have hcodes : (BitSeq.ofBits codeBits).Fits s.caps :=
    BitSeq.fits_ofBits ((readBits_length hcodes).symm ▸ ensure_eq_ok.1 htotal)
  have hdata : (BitSeq.ofBits dataBits).Fits s.caps :=
    BitSeq.fits_ofBits ((readBits_length hdata).symm ▸ ensure_eq_ok.1 hcount)
  have hta := h.withTa (treeArray syms) (treeArray lens)
    (of_decide_eq_true (ensure_eq_ok.1 halphabet))
  exact (hta.setReg hcodes 257).setReg hdata 258

/-- TABLE.LOAD cuts codes out of CODES, each no longer than it (R188). -/
theorem loadEntries_inv (l : List (Byte × Byte)) {codes : BitSeq} :
    ∀ (off : Nat) (s t : State), codes.Fits s.caps → s.Inv → loadEntries codes off l s = .ok t → t.Inv := by
  induction l with
  | nil =>
    intro off s t _ h hs
    cases hs
    exact h
  | cons e rest ih =>
    obtain ⟨sym, len⟩ := e
    intro off s t hcodes h hs
    obtain ⟨-, -, hs⟩ := res_bind_ok.1 hs
    obtain ⟨_, hlen, hs⟩ := res_bind_ok.1 hs
    have hlen := of_decide_eq_true (ensure_eq_ok.1 hlen)
    refine ih _ (s.setCode _ _) t hcodes (h.setCode (BitSeq.fits_ofBits ?_) _) hs
    exact capAllows_mono (by simp; omega) hcodes.2

theorem tableLoadStage_inv (h : s.Inv) (hs : tableLoadStage s = .ok t) : t.Inv :=
  loadEntries_inv s.taEntries 0 s.clearTable t (h.fits_reg 257) h.clearTable hs

/-- The walk of an insertion allocates missing children only, and within NODE_CAP (R34, R153). -/
theorem walkPath_wf {root : Option Nat} {nodes nodes' : List Node} {cur last : Nat} {code : List Bool}
    (h : Arena.Wf ⟨nodes, root⟩) (hw : walkPath nodes cur code = .ok (nodes', last)) :
    Arena.Wf ⟨nodes', root⟩ := by
  induction code generalizing nodes cur with
  | nil =>
    cases hw
    exact h
  | cons b code ih =>
    rw [walkPath] at hw
    split at hw
    · cases hw
    · cases hw
    · next l r f hcur =>
      split at hw
      · exact ih h hw
      · next hnone =>
        split_ifs at hw with hcap
        exact ih (h.attach hcur hnone hcap) hw

theorem insertCode_wf {a a' : Arena} {sym : Byte} {code : List Bool} (h : a.Wf)
    (hi : insertCode a sym code = .ok a') : a'.Wf := by
  rw [insertCode] at hi
  split at hi
  · cases hi
  · obtain ⟨⟨nodes, last⟩, hw, hi⟩ := res_bind_ok.1 hi
    have hwf : Arena.Wf ⟨nodes, a.root⟩ := walkPath_wf h hw
    dsimp only at hi
    split at hi
    · cases hi
    · next f hlast =>
      cases hi
      exact hwf.setLeaf hlast
    · cases hi

theorem treeInsertStage_inv {sym : Byte} {code : BitSeq} (h : s.Inv)
    (hs : treeInsertStage sym code s = .ok t) : t.Inv := by
  have harena := h
  obtain ⟨-, -, -, -, -, harena, -⟩ := harena
  obtain ⟨a, ha, hs⟩ := res_bind_ok.1 hs
  cases hs
  exact h.withArena (insertCode_wf harena ha)

theorem treeInitStage_inv (h : s.Inv) (hs : treeInitStage s = .ok t) : t.Inv := by
  cases hs
  exact h.withArena (built_bareRoot fun _ => []).wf

theorem treeFromTableStage_inv (h : s.Inv) (hs : treeFromTableStage s = .ok t) : t.Inv := by
  obtain ⟨u, hu, hs⟩ := res_bind_ok.1 hs
  exact foldlM_keeps (P := State.Inv) (fun _ _ _ hi => treeInsertStage_inv hi) _
    (treeInitStage_inv h hu) hs

theorem treeDecodeStage_inv (h : s.Inv) (hs : treeDecodeStage s = .ok t) : t.Inv := by
  obtain ⟨out, -, hs⟩ := res_bind_ok.1 hs
  obtain ⟨_, hcap, hs⟩ := res_bind_ok.1 hs
  cases hs
  exact h.withOut (by simpa [memAppend] using hcap)

theorem decodeStage_inv (h : s.Inv) (hs : decodeStage s = .ok t) : t.Inv := by
  obtain ⟨a, ha, hs⟩ := res_bind_ok.1 hs
  obtain ⟨b, hb, hs⟩ := res_bind_ok.1 hs
  obtain ⟨c, hc, hs⟩ := res_bind_ok.1 hs
  have htable := tableLoadStage_inv (hefDeserializeStage_inv h ha) hb
  exact treeDecodeStage_inv (treeFromTableStage_inv htable hc) hs

/-! ### Rules -/

theorem passVarint_inv {k v : Nat} {l : List Byte} (h : s.Inv) (hs : passVarint k v s = .ok (t, l)) :
    t.Inv := by
  obtain ⟨-, rfl, -⟩ := passVarint_cases hs
  exact h

/-- A command that reaches its end keeps the invariant. -/
theorem rule_inv {i : Instr} {l : List Byte} (h : s.Inv) (hs : i.rule s = .ok (t, l)) : t.Inv := by
  cases i <;> simp only [Instr.rule, withoutResult_eq_ok] at hs
  case bsClear =>
    cases hs.1
    exact h.setReg (BitSeq.fits_empty _) _
  case bsCopy =>
    cases hs.1
    exact h.setReg (h.fits_reg _) _
  case bsPushBit =>
    obtain ⟨v, hv, hs⟩ := res_bind_ok.1 hs.1
    cases hs
    exact h.setReg (pushBitCap_fits (h.fits_reg _) hv) _
  case bsPushByte =>
    obtain ⟨_, hn, hs⟩ := res_bind_ok.1 hs.1
    obtain ⟨v, hv, hs⟩ := res_bind_ok.1 hs
    cases hs
    exact h.setReg (pushByteCap_fits (h.fits_reg _) (of_decide_eq_true (ensure_eq_ok.1 hn)) hv) _
  case bsPushSeq =>
    obtain ⟨v, hv, hs⟩ := res_bind_ok.1 hs.1
    cases hs
    exact h.setReg (pushSeqCap_fits (h.fits_reg _) (h.fits_reg _) hv) _
  case bsPop =>
    obtain ⟨-, -, hs⟩ := res_bind_ok.1 hs.1
    cases hs
    exact h.setReg (h.fits_reg _).pop _
  case bsAt =>
    obtain ⟨-, -, hs⟩ := res_bind_ok.1 hs
    cases hs
    exact h
  case bsSize | bsIter =>
    cases hs
    exact h
  case csrRead =>
    split at hs <;> cases hs
    exact h
  case freqCount => exact freqCountStage_inv h hs.1
  case treeBuild => exact treeBuildStage_inv h hs.1
  case tableDerive => exact tableDeriveStage_inv h hs.1
  case dataEncode => exact dataEncodeStage_inv h hs.1
  case tableLoad => exact tableLoadStage_inv h hs.1
  case treeInsert => exact treeInsertStage_inv h hs.1
  case treeFromTable => exact treeFromTableStage_inv h hs.1
  case treeDecode => exact treeDecodeStage_inv h hs.1
  case treeInit => exact treeInitStage_inv h hs.1
  case hefSerialize => exact hefSerializeStage_inv h hs.1
  case hefDeserialize => exact hefDeserializeStage_inv h hs.1
  case encodeInput => exact encodeStage_inv h hs.1
  case decodeBlob => exact decodeStage_inv h hs.1
  case varintTag0 | varintTag1 | varintTag2 | varintTag3 => exact passVarint_inv h hs

/-! ### Draws (R229) -/

section Draws

variable (h : s.Inv)
include h

theorem State.Inv.drawTable : s.drawTable.Inv :=
  h.withTable _ fun i hi => by
    rw [Vector.getElem_ofFn]
    exact fits_drawSeq _ _ _

theorem State.Inv.drawPath : s.drawPath.Inv := h.setReg (fits_drawSeq _ _ _) 256

theorem State.Inv.drawCodes : s.drawCodes.Inv := h.setReg (fits_drawSeq _ _ _) 257

theorem State.Inv.drawData : s.drawData.Inv := h.setReg (fits_drawSeq _ _ _) 258

theorem State.Inv.drawTa : s.drawTa.Inv := h.withTa _ _ (Nat.min_le_left _ _)

theorem State.Inv.drawCur : s.drawCur.Inv := h

theorem State.Inv.drawFreq : s.drawFreq.Inv :=
  h.withFreq fun _ i hi => by
    rw [Vector.getElem_ofFn]
    exact BitVec.isLt _

theorem State.Inv.drawSort : s.drawSort.Inv := by
  refine h.withSorter ?_ (BitVec.isLt _)
  split_ifs with hwf
  · exact hwf
  · decide

theorem State.Inv.drawArena : s.drawArena.Inv := by
  refine h.withArena ?_
  split_ifs with hwf
  · exact hwf
  · decide

theorem State.Inv.drawn : s.drawn.Inv := h

/-- Whatever a raise leaves of the state keeps the invariant (R229). -/
theorem unspecified_inv (i : Instr) : (i.unspecified s).Inv := by
  cases i
  case tableDerive => exact h.drawTable.drawPath.drawn
  case dataEncode => exact h.drawData.drawn
  case tableLoad => exact h.drawTable.drawn
  case treeFromTable => exact h.drawArena.drawn
  case hefSerialize => exact h.drawTa.drawCodes.drawn
  case hefDeserialize => exact h.drawCur.drawTa.drawCodes.drawData.drawn
  case encodeInput =>
    exact h.drawFreq.drawSort.drawArena.drawTable.drawPath.drawData.drawTa.drawCodes.drawn
  case decodeBlob => exact h.drawCur.drawTa.drawCodes.drawData.drawTable.drawArena.drawn
  case varintTag0 | varintTag1 | varintTag2 | varintTag3 => exact h.drawCur.drawn
  all_goals exact h

end Draws

/-! ### Steps -/

/-- An instruction keeps the invariant, whatever it ends with. -/
theorem exec_inv {i : Instr} (h : s.Inv) (hs : exec i s = .next t) : t.Inv := by
  obtain ⟨hf, rfl⟩ | ⟨hf, -, rfl⟩ | ⟨hf, -, u, l, hrule, rfl⟩ | ⟨hf, -, r, -, rfl⟩ := exec_cases hs
  · exact h.refuse hf
  · exact h.raise hf _
  · exact (rule_inv h hrule).finish ((Writes.rule hrule).fault.trans hf) l
  · exact (unspecified_inv h i).raise ((Writes.unspecified i s).fault.trans hf) r

/-- So does every request served. -/
theorem Served.inv {q : Request} (h : s.Inv) (hs : Served s q t) : t.Inv := by
  cases hs with
  | loadIn l hcap => exact h.withIn hcap
  | loadOut l hcap => exact h.withOut hcap
  | loadBlob l hcap => exact h.withBlob hcap
  | readIn | readOut | readBlob => exact h
  | reset => exact State.inv_hostReset h.1
  | command _ _ _ _ hexec | varint _ _ _ _ hexec => exact exec_inv h hexec
  | illegalPacket =>
    rw [State.illegalPacket]
    split_ifs with hf
    · exact h.refuse hf
    · exact h.raise (Bool.eq_false_iff.2 hf) _
  | badVarint e =>
    split_ifs with hf
    · exact h.refuse hf
    · exact h.drawCur.drawn.raise (Bool.eq_false_iff.2 hf) _

end Machine

/-- Settles O3: the rules, the draws of R229 and the host's interactions each keep the invariant. -/
theorem stepKeepsTheInvariant : Obligations.StepKeepsTheInvariant := by
  unfold Obligations.StepKeepsTheInvariant
  intro s t h hs
  obtain ⟨-, rfl⟩ | ⟨q, rest, -, hserved⟩ := step_cases hs
  · exact h
  · exact hserved.inv (s := { s with pending := rest }) h

end Sys2Proof
end

section
/-! SUPPORT. What a step does with the model's queue: O5. -/

namespace Sys2Proof

namespace Machine

variable {s : State}

theorem step_of_empty (h : s.pending = []) : step s = .next s := by
  rw [step, h]

/-- The oldest request is served on the state without it (log 1). -/
theorem step_of_pending {q : Request} {rest : List Request} (h : s.pending = q :: rest) :
    step s = serve q { s with pending := rest } := by
  rw [step, h]

/-- A packet that decodes runs its instruction (R69, R83). -/
theorem serve_command_of_decode {p : List Byte} {i : Instr} (h : decodeCommand p = .ok i) :
    serve (.command p) s = exec i s := by
  rw [serve, serveCommand, h]

/-- A varint that decodes at CUR runs (R174, log 4). -/
theorem serve_readVarint_of_decode {i : Instr} {tail : List Byte}
    (h : decodeVarint (s.blob.drop s.cur) = .ok (i, tail)) : serve .readVarint s = exec i s := by
  rw [serve, serveVarint, h]

end Machine

open Machine

/-- Settles O5: a step serves the oldest request, and taking it off the queue leaves BLOB and CUR, so the
varint decoded is the one at CUR before the step. -/
theorem stepRunsTheDecodedInstruction : Obligations.StepRunsTheDecodedInstruction := by
  unfold Obligations.StepRunsTheDecodedInstruction
  refine ⟨fun s p rest i hp hdecode => ?_, fun s rest i tail hp hdecode => ?_, fun s => step_of_empty⟩
  · exact (step_of_pending hp).trans (serve_command_of_decode hdecode)
  · exact (step_of_pending hp).trans (serve_readVarint_of_decode hdecode)

end Sys2Proof
end

section
/-! SUPPORT. Packets (spec/30_encoding.md R81 to R86): the row of an opcode gives back the operands that `encode`
wrote, and only those bytes. O8, O9, O11 and O12 follow. -/

namespace Sys2Proof

open Machine Claims

/-! ### Little-endian operands -/

theorem leNat_lt (l : List Byte) : leNat l < 256 ^ l.length := by
  induction l with
  | nil => simp [leNat]
  | cons b l ih =>
    have := b.isLt
    rw [leNat, List.length_cons, Nat.pow_succ]
    omega

/-- A byte list is the little-endian form of its value (R89, R171). -/
theorem leBytes_leNat (l : List Byte) : leBytes l.length (leNat l) = l := by
  induction l with
  | nil => rfl
  | cons b l ih =>
    have hb := b.isLt
    have htail : (b.toNat + 256 * leNat l) / 256 = leNat l := by omega
    have hhead : BitVec.ofNat 8 (b.toNat + 256 * leNat l) = b := by
      refine BitVec.eq_of_toNat_eq ?_
      rw [BitVec.toNat_ofNat]
      omega
    rw [List.length_cons, leNat, leBytes_succ, htail, hhead, ih]

/-- Bytes read as a word of their width are the word's bytes. -/
theorem leBytes_toNat_ofNat_leNat {k w : Nat} {l : List Byte} (hl : l.length = k) (hw : w = 8 * k) :
    leBytes k (BitVec.ofNat w (leNat l)).toNat = l := by
  subst hl hw
  have hlt : leNat l < 2 ^ (8 * l.length) := by
    rw [Nat.pow_mul]
    exact leNat_lt l
  rw [BitVec.toNat_ofNat, Nat.mod_eq_of_lt hlt, leBytes_leNat]

/-- A word written as bytes and read back (R81, R89). -/
theorem ofNat_leNat_leBytes {k w : Nat} (v : BitVec w) (hw : w = 8 * k) :
    BitVec.ofNat w (leNat (leBytes k v.toNat)) = v := by
  subst hw
  have hv : v.toNat < 256 ^ k := by
    have := v.isLt
    rwa [Nat.pow_mul] at this
  rw [leNat_leBytes hv, BitVec.ofNat_toNat, BitVec.setWidth_eq]

/-! ### Operands of a packet -/

/-- A register operand is two bytes (R81). -/
theorem leBytes_two (r : BitVec 16) :
    ∃ a b, leBytes 2 r.toNat = [a, b] ∧ BitVec.ofNat 16 (leNat [a, b]) = r := by
  obtain ⟨a, b, h⟩ := List.length_eq_two.1 (length_leBytes 2 r.toNat)
  exact ⟨a, b, h, h ▸ ofNat_leNat_leBytes r rfl⟩

/-- An operand within the packet is its bytes. -/
theorem leBytes_operandAt {p : List Byte} {off k w : Nat} (hw : w = 8 * k) (h : off + k ≤ p.length) :
    leBytes k (BitVec.ofNat w (operandAt p off k)).toNat = (p.drop off).take k :=
  leBytes_toNat_ofNat_leNat (by simp; omega) hw

theorem leBytes_regAt {p : List Byte} {off : Nat} (h : off + 2 ≤ p.length) :
    leBytes 2 (regAt p off).toNat = (p.drop off).take 2 :=
  leBytes_operandAt rfl h

theorem byteAt_eq_getD (p : List Byte) (off : Nat) : byteAt p off = p.getD off 0 := by
  rw [byteAt, operandAt, List.getD_eq_getElem?_getD, ← List.head?_drop]
  cases p.drop off <;> simp [leNat]

/-- A missing byte reads as 0, in the decoder as in the table of R81. -/
theorem toNat_regAt (p : List Byte) (off : Nat) :
    (regAt p off).toNat = (p.getD off 0).toNat + 256 * (p.getD (off + 1) 0).toNat := by
  simp only [regAt, operandAt, List.getD_eq_getElem?_getD, ← List.head?_drop, ← List.drop_drop]
  cases p.drop off with
  | nil => rfl
  | cons a l =>
    cases l with
    | nil => simp [leNat]; omega
    | cons b l => simp [leNat]; omega

/-! ### Rows -/

/-- Each row reads its operands where `encode` wrote them (R81, R83). -/
theorem commandRow_encode {i : Instr} (h : i.isVarint = false) :
    commandRow i.opcode (encode i) = some ((encode i).length, i) := by
  cases i
  case varintTag0 | varintTag1 | varintTag2 | varintTag3 => cases h
  case bsClear r | bsPushBit r _ | bsPushByte r _ _ | bsPop r | bsSize r | bsIter r | treeInsert _ r =>
    obtain ⟨a, b, hbytes, hr⟩ := leBytes_two r
    simp [encode, Instr.opcode, Instr.operandBytes, commandRow, regAt, operandAt, byteAt_eq_getD, hbytes, hr]
  case bsCopy r s | bsPushSeq r s =>
    obtain ⟨a, b, hbytes, hr⟩ := leBytes_two r
    obtain ⟨c, d, hbytes', hs⟩ := leBytes_two s
    simp [encode, Instr.opcode, Instr.operandBytes, commandRow, regAt, operandAt, hbytes, hbytes', hr, hs]
  case bsAt r index =>
    obtain ⟨a, b, hbytes, hr⟩ := leBytes_two r
    have hindex := ofNat_leNat_leBytes (k := 8) index rfl
    simp [encode, Instr.opcode, Instr.operandBytes, commandRow, regAt, operandAt, hbytes, hr, hindex,
      List.take_of_length_le]
  case csrRead n => simp [encode, Instr.opcode, Instr.operandBytes, commandRow, byteAt_eq_getD]
  all_goals rfl

/-- A row's operands, written out again, are the bytes of a packet of the row's length (R81, R83). -/
theorem operandBytes_of_commandRow {op : Byte} {p : List Byte} {i : Instr}
    (h : commandRow op p = some (p.length, i)) :
    i.isVarint = false ∧ i.opcode = op ∧ i.operandBytes = p.tail := by
  have hop {n : Nat} (hn : op.toNat = n) : BitVec.ofNat 8 n = op := by
    rw [← hn, BitVec.ofNat_toNat, BitVec.setWidth_eq]
  unfold commandRow at h
  split at h
  case h_24 => cases h
  all_goals
    rename_i hn
    obtain ⟨hlen, rfl⟩ := by simpa using h
    refine ⟨rfl, hop hn, ?_⟩
  case h_1 | h_6 | h_8 | h_9 => -- one register
    match p, hlen with
    | [_, _, _], _ => simp [Instr.operandBytes, leBytes_regAt]
  case h_2 | h_5 => -- two registers
    match p, hlen with
    | [_, _, _, _, _], _ => simp [Instr.operandBytes, leBytes_regAt]
  case h_4 => -- BS.PUSH_BYTE: a register and two bytes
    match p, hlen with
    | [_, _, _, _, _], _ => simp [Instr.operandBytes, leBytes_regAt, byteAt_eq_getD]
  case h_3 | h_15 => -- BS.PUSH_BIT and TREE.INSERT: a register and a byte
    match p, hlen with
    | [_, _, _, _], _ => simp [Instr.operandBytes, leBytes_regAt, byteAt_eq_getD]
  case h_7 => -- BS.AT: a register and an index
    match p, hlen with
    | op :: a :: b :: l, hlen =>
      have hl : l.length = 8 := by simpa using hlen.symm
      rw [Instr.operandBytes, leBytes_regAt (by simp), leBytes_operandAt rfl (by simp [hl])]
      simp [hl]
  case h_23 => -- CSR.READ: one byte
    match p, hlen with
    | [_, _], _ => simp [Instr.operandBytes, byteAt_eq_getD]
  all_goals
    match p, hlen with
    | [_], _ => rfl

/-! ### O8 and O9 -/

/-- A packet decodes when its row has its length and the row's operands are legal (R86). -/
theorem decodeCommand_cons_eq_ok {op : Byte} {rest : List Byte} {i : Instr} :
    decodeCommand (op :: rest) = .ok i ↔
      commandRow op (op :: rest) = some ((op :: rest).length, i) ∧ i.WellFormed := by
  rw [decodeCommand, Instr.WellFormed]
  cases commandRow op (op :: rest) with
  | none => simp
  | some row =>
    obtain ⟨n, j⟩ := row
    simp only [Option.some.injEq, Prod.mk.injEq]
    by_cases hn : (op :: rest).length = n
    · rw [if_neg (not_not.2 hn)]
      cases hj : j.problem with
      | none =>
        simp only [hn, true_and, Except.ok.injEq]
        exact ⟨fun h => ⟨h, h ▸ hj⟩, And.left⟩
      | some e =>
        simp only [hn, reduceCtorEq, true_and, false_iff]
        rintro ⟨rfl, hwf⟩
        cases hj.symm.trans hwf
    · rw [if_pos hn]
      exact iff_of_false nofun fun ⟨⟨h, _⟩, _⟩ => hn h.symm

/-- Settles O8: the row of an instruction's opcode reads the instruction back. -/
theorem decodeInvertsEncode : Obligations.DecodeInvertsEncode := by
  unfold Obligations.DecodeInvertsEncode
  intro i hcommand hwf
  exact decodeCommand_cons_eq_ok.2 ⟨commandRow_encode hcommand, hwf⟩

/-- Settles O9: a packet that decodes has its row's length, so the row's operands are all its bytes. -/
theorem decodedPacketsAreEncodings : Obligations.DecodedPacketsAreEncodings := by
  unfold Obligations.DecodedPacketsAreEncodings
  intro p i h
  cases p with
  | nil => cases h
  | cons op rest =>
    obtain ⟨hrow, hwf⟩ := decodeCommand_cons_eq_ok.1 h
    obtain ⟨hcommand, hop, hbytes⟩ := operandBytes_of_commandRow hrow
    exact ⟨hcommand, hwf, congrArg₂ List.cons hop hbytes⟩

/-- Settles O11: the decoder is run on each packet. -/
theorem writtenOutPacketsDecode : Obligations.WrittenOutPacketsDecode :=
  ⟨rfl, rfl, rfl, rfl, rfl, rfl, rfl, rfl⟩

/-! ### The cases of R86 -/

theorem registerProblem_regAt (p : List Byte) (off : Nat) :
    registerProblem (regAt p off) =
      if 263 ≤ (p.getD off 0).toNat + 256 * (p.getD (off + 1) 0).toNat then some .badRegister else none := by
  rw [registerProblem, toNat_regAt, Config.nbs]
  simp only [← not_lt, ite_not]

theorem csrListed_iff (n : Byte) : csrListed n = true ↔ n.toNat ∈ csrNumbers := by
  simp only [csrListed, csrNumbers, Bool.or_eq_true, decide_eq_true_eq, Bool.and_eq_true, List.mem_cons,
    List.not_mem_nil, or_false]
  omega

/-- The cases (d) to (f) of R86, for a packet whose register operands stand at `regs`. -/
def operandFault (p : List Byte) (op : Byte) (regs : List Nat) : Option Reject :=
  if regs.any (fun o => decide (263 ≤ (p.getD o 0).toNat + 256 * (p.getD (o + 1) 0).toNat))
  then some .badRegister
  else if op.toNat = 0x12 ∧ 1 < (p.getD 3 0).toNat then some .badBit
  else if op.toNat = 0x50 ∧ (p.getD 1 0).toNat ∉ csrNumbers then some .badCsr
  else none

/-- The opcode map and the format table list the same opcodes, with the same lengths and register operands. -/
theorem commandRow_format (op : Byte) (p : List Byte) :
    (commandRow op p = none ∧ Claims.formatTable.find? (fun x => x.1 == op.toNat) = none) ∨
    ∃ len regs i, commandRow op p = some (len, i) ∧
      Claims.formatTable.find? (fun x => x.1 == op.toNat) = some (op.toNat, len, regs) ∧
      i.problem = operandFault p op regs := by
  have hor (c : Prop) [Decidable c] (e : Reject) (x : Option Reject) :
      (if c then some e else none).or x = if c then some e else x := by
    split_ifs <;> rfl
  have hbit (n : Nat) (e : Reject) : (if n ≤ 1 then none else some e) = if 1 < n then some e else none := by
    simp only [← not_le, ite_not]
  unfold commandRow
  split
  case h_24 =>
    refine .inl ⟨rfl, List.find?_eq_none.2 ?_⟩
    simp only [imp_false] at *
    simp only [Claims.formatTable, List.mem_cons, List.not_mem_nil, or_false, beq_iff_eq, forall_eq_or_imp,
      forall_eq]
    omega
  all_goals
    rename_i hop
    rw [hop]
    refine .inr ⟨_, _, _, rfl, rfl, ?_⟩
  case h_2 | h_5 =>
    simp [operandFault, hop, Instr.problem, registerProblem_regAt, hor, ite_or]
  case h_3 =>
    simp [operandFault, hop, Instr.problem, registerProblem_regAt, hor, hbit, byteAt_eq_getD]
  case h_23 =>
    simp [operandFault, hop, Instr.problem, csrListed_iff, byteAt_eq_getD]
  all_goals
    simp [operandFault, hop, Instr.problem, registerProblem_regAt]

/-- The name under which a decoding is rejected. -/
def rejection (r : Except Reject Instr) : Option Reject :=
  match r with
  | .ok _ => none
  | .error e => some e

/-- The decoder's checks are the cases of R86, in their order. -/
theorem rejection_decodeCommand (p : List Byte) : rejection (decodeCommand p) = packetFault p := by
  cases p with
  | nil => rfl
  | cons op rest =>
    rw [decodeCommand, packetFault]
    obtain ⟨hrow, hfind⟩ | ⟨len, regs, i, hrow, hfind, hproblem⟩ := commandRow_format op (op :: rest)
    · rw [hrow, hfind]
      rfl
    · rw [hrow, hfind]
      dsimp only
      by_cases hlen : (op :: rest).length = len
      · rw [if_neg (not_not.2 hlen), if_neg (not_not.2 hlen)]
        rw [operandFault] at hproblem
        rw [← hproblem]
        cases i.problem <;> rfl
      · rw [if_pos hlen, if_pos hlen, rejection]

/-- Settles O12: a packet that falls under a case is rejected, and its service is one raise. -/
theorem illegalPacketsLatchTheCore : Obligations.IllegalPacketsLatchTheCore := by
  unfold Obligations.IllegalPacketsLatchTheCore
  refine ⟨rejection_decodeCommand, fun s p rest hf hp hillegal => ?_⟩
  rw [← rejection_decodeCommand] at hillegal
  rw [step_of_pending hp, serve, serveCommand]
  cases hdecode : decodeCommand p with
  | ok i => exact absurd (by rw [hdecode, rejection]) hillegal
  | error e => simp [State.illegalPacket, hf, State.raise, State.flagFault, faultAfter, FaultCode.byte]

end Sys2Proof
end

section
/-! SUPPORT. Varints (spec/30_encoding.md R88 to R91, spec/42_hef_codec.md R172 to R174): the decoder, the reader
at a cursor, and the reader transaction on one element. O10, O47, O48 and O6 follow. -/

namespace Sys2Proof

open Machine Claims

/-! ### The four forms -/

/-- The varint of tag `t` and value `v` (R88, R89). -/
def varintForm (t v : Nat) : Instr :=
  match t with
  | 0 => .varintTag0 (BitVec.ofNat 8 v)
  | 1 => .varintTag1 (BitVec.ofNat 16 v)
  | 2 => .varintTag2 (BitVec.ofNat 32 v)
  | _ => .varintTag3 (BitVec.ofNat 64 v)

/-- The tag fixes the form, whatever the value (R91). -/
theorem decodeVarint_cons (t : Byte) (rest : List Byte) :
    decodeVarint (t :: rest) =
      if t.toNat ≤ 3 then (varintValue (2 ^ t.toNat) rest).map fun x => (varintForm t.toNat x.1, x.2)
      else .error .badTag := by
  rw [decodeVarint]
  split
  case h_5 =>
    simp only [imp_false] at *
    rw [if_neg (by omega)]
  all_goals
    rename_i ht
    rw [ht]
    rfl

/-- A form with the value of `2^tag` bytes is written as its tag and those bytes. -/
theorem varintForm_bytes {t : Byte} {l : List Byte} (ht : t.toNat ≤ 3) (hl : l.length = 2 ^ t.toNat) :
    (varintForm t.toNat (leNat l)).isVarint = true ∧ encode (varintForm t.toNat (leNat l)) = t :: l := by
  have hcases : t = 0 ∨ t = 1 ∨ t = 2 ∨ t = 3 := by bv_omega
  obtain rfl | rfl | rfl | rfl := hcases
  all_goals exact ⟨rfl, congrArg _ (leBytes_toNat_ofNat_leNat hl rfl)⟩

/-- Every varint row is the form of its tag and value bytes. -/
theorem eq_varintForm {i : Instr} (h : i.isVarint = true) :
    i.opcode.toNat ≤ 3 ∧ i.operandBytes.length = 2 ^ i.opcode.toNat ∧
      i = varintForm i.opcode.toNat (leNat i.operandBytes) := by
  cases i
  case varintTag0 v => exact ⟨Nat.le_of_ble_eq_true rfl, rfl, congrArg _ (ofNat_leNat_leBytes v rfl).symm⟩
  case varintTag1 v => exact ⟨Nat.le_of_ble_eq_true rfl, rfl, congrArg _ (ofNat_leNat_leBytes v rfl).symm⟩
  case varintTag2 v => exact ⟨Nat.le_of_ble_eq_true rfl, rfl, congrArg _ (ofNat_leNat_leBytes v rfl).symm⟩
  case varintTag3 v => exact ⟨Nat.le_of_ble_eq_true rfl, rfl, congrArg _ (ofNat_leNat_leBytes v rfl).symm⟩
  all_goals cases h

theorem varintValue_eq_ok {k v : Nat} {rest tail : List Byte} :
    varintValue k rest = .ok (v, tail) ↔ ∃ l, l.length = k ∧ rest = l ++ tail ∧ v = leNat l := by
  rw [varintValue]
  split_ifs with h
  · rw [Except.ok.injEq, Prod.mk.injEq]
    constructor
    · rintro ⟨rfl, rfl⟩
      exact ⟨rest.take k, List.length_take_of_le h, (List.take_append_drop k rest).symm, rfl⟩
    · rintro ⟨l, rfl, rfl, rfl⟩
      simp
  · refine iff_of_false nofun ?_
    rintro ⟨l, rfl, rfl, -⟩
    exact h (by simp)

/-- The decoder reads an encoded varint off the head of the bytes, and reads nothing else (R88, R91). -/
theorem decodeVarint_eq_ok {bytes tail : List Byte} {i : Instr} :
    decodeVarint bytes = .ok (i, tail) ↔ i.isVarint = true ∧ bytes = encode i ++ tail := by
  cases bytes with
  | nil => simp [decodeVarint, encode]
  | cons t rest =>
    rw [decodeVarint_cons]
    constructor
    · intro h
      split_ifs at h with ht
      cases hvalue : varintValue (2 ^ t.toNat) rest with
      | error e => rw [hvalue] at h; cases h
      | ok x =>
        rw [hvalue] at h
        cases h
        obtain ⟨l, hl, rfl, hx⟩ := varintValue_eq_ok.1 hvalue
        obtain ⟨hi, hbytes⟩ := varintForm_bytes ht hl
        rw [hx, hbytes]
        exact ⟨hi, rfl⟩
    · rintro ⟨hi, hbytes⟩
      obtain ⟨ht, hl, hform⟩ := eq_varintForm hi
      obtain ⟨rfl, rfl⟩ := List.cons.inj hbytes
      have hvalue : varintValue (2 ^ i.opcode.toNat) (i.operandBytes.append tail) =
          .ok (leNat i.operandBytes, tail) := varintValue_eq_ok.2 ⟨_, hl, rfl, rfl⟩
      rw [if_pos ht, hvalue, Except.map, ← hform]

/-- Settles O10: both directions are one equivalence. -/
theorem varintFormsRoundTrip : Obligations.VarintFormsRoundTrip := by
  unfold Obligations.VarintFormsRoundTrip
  refine ⟨fun i tail hi => decodeVarint_eq_ok.2 ⟨hi, rfl⟩, fun bytes tail i h => ?_⟩
  obtain ⟨hi, hbytes⟩ := decodeVarint_eq_ok.1 h
  exact ⟨hi, hbytes.symm⟩

/-! ### The reader at a cursor -/

namespace Machine

variable {blob rest : List Byte} {cur : Nat}

/-- A read of at least one byte sees only the bytes from the cursor on (R172). -/
theorem readBytes_eq_drop {k : Nat} (hk : 0 < k) :
    readBytes blob cur k =
      if k ≤ (blob.drop cur).length then .ok ((blob.drop cur).take k, cur + k)
      else .error (.raise (.call .truncated)) := by
  have hiff : k ≤ (blob.drop cur).length ↔ cur + k ≤ blob.length := by
    rw [List.length_drop]
    omega
  rw [readBytes, memRead]
  simp only [hiff]

theorem readU8_of_drop_nil (h : blob.drop cur = []) : readU8 blob cur = .error (.raise (.call .truncated)) := by
  rw [readU8, readBytes_eq_drop Nat.one_pos, h]
  rfl

theorem readU8_of_drop_cons {b : Byte} (h : blob.drop cur = b :: rest) : readU8 blob cur = .ok (b, cur + 1) := by
  rw [readU8, readBytes_eq_drop Nat.one_pos, h]
  rfl

/-- The reader's second part: after the tag, its value bytes (R174). -/
theorem readVarint_of_drop_cons {t : Byte} (h : blob.drop cur = t :: rest) :
    readVarint blob cur =
      if t.toNat ≤ 3 then
        if 2 ^ t.toNat ≤ rest.length then .ok (leNat (rest.take (2 ^ t.toNat)), cur + 1 + 2 ^ t.toNat)
        else .error (.raise (.call .truncated))
      else .error (.raise (.call .badTag)) := by
  have hdrop : blob.drop (cur + 1) = rest := by rw [← List.drop_drop, h, List.drop_one, List.tail_cons]
  rw [readVarint, readU8_of_drop_cons h]
  dsimp only [bind, Except.bind]
  rw [readBytes_eq_drop (Nat.two_pow_pos _), hdrop, ensure]
  by_cases ht : t.toNat ≤ 3
  · rw [if_pos ht, if_pos (decide_eq_true ht)]
    split_ifs <;> rfl
  · rw [if_neg ht, if_neg (by simpa using ht)]

theorem readVarint_of_decode {i : Instr} {tail : List Byte} (h : decodeVarint (blob.drop cur) = .ok (i, tail)) :
    readVarint blob cur = .ok (leNat i.operandBytes, cur + (encode i).length) := by
  obtain ⟨hi, hbytes⟩ := decodeVarint_eq_ok.1 h
  obtain ⟨ht, hl, -⟩ := eq_varintForm hi
  rw [readVarint_of_drop_cons hbytes, if_pos ht, if_pos (by simp [hl])]
  rw [← hl, List.append_eq, List.take_left, encode, List.length_cons, Nat.add_assoc, Nat.add_comm 1]

theorem readVarint_of_decode_error {e : CallError} (h : decodeVarint (blob.drop cur) = .error e) :
    readVarint blob cur = .error (.raise (.call e)) := by
  cases hd : blob.drop cur with
  | nil =>
    rw [hd] at h
    cases h
    rw [readVarint, readU8_of_drop_nil hd]
    rfl
  | cons t rest =>
    rw [hd, decodeVarint_cons] at h
    rw [readVarint_of_drop_cons hd]
    split_ifs at h ⊢ with ht hl
    · rw [varintValue, if_pos hl] at h; cases h
    · rw [varintValue, if_neg hl] at h; cases h; rfl
    · cases h; rfl

end Machine

/-- Settles O47: the reader looks at the same tag and the same value bytes as the decoder. -/
theorem readVarintIsTheDecodedForm : Obligations.ReadVarintIsTheDecodedForm :=
  fun _ _ => ⟨fun _ _ => readVarint_of_decode, fun _ => readVarint_of_decode_error⟩

/-! ### The reader transaction -/

namespace Machine

theorem passVarint_of_le {s : State} {k : Nat} (v : Nat) (h : s.cur + (1 + k) ≤ s.blob.length) :
    passVarint k v s = .ok ({ s with cur := s.cur + (1 + k) }, read64 v) := by
  rw [passVarint, readBytes, if_pos h]
  rfl

theorem passVarint_of_lt {s : State} {k : Nat} (v : Nat) (h : s.blob.length < s.cur + (1 + k)) :
    passVarint k v s = .error (.raise (.call .truncated)) := by
  rw [passVarint, readBytes, if_neg (by omega)]
  rfl

theorem read64_toNat {w : Nat} (v : BitVec w) (hw : w ≤ 64) : read64 v.toNat = leBytes 8 v.toNat := by
  have hv : v.toNat < 2 ^ 64 := v.isLt.trans_le (Nat.pow_le_pow_right Nat.two_pos hw)
  rw [read64, zext64, if_pos hv, BitVec.toNat_ofNat, Nat.mod_eq_of_lt hv]

/-- The rule of each varint row is the pass over its value bytes, and a raise of it draws CUR (log 4). -/
theorem rule_of_isVarint {i : Instr} (h : i.isVarint = true) :
    ∃ v, i.rule = passVarint i.operandBytes.length v ∧ i.unspecified = State.afterReader ∧ i.WellFormed := by
  cases i
  case varintTag0 v | varintTag1 v | varintTag2 v | varintTag3 v => exact ⟨v.toNat, rfl, rfl, rfl⟩
  all_goals cases h

/-- A raise of the reader transaction leaves CUR and the flags alone different (R229, log 4). -/
theorem State.afterReader_raise (s : State) (e : CallError) :
    s.afterReader.raise (.call e) =
      { s with cur := s.drawCur.cur, status := .callError e, response := [e.byte], draws := s.draws + 1 } := by
  simp only [State.afterReader, State.drawn, State.drawCur, State.raise, State.flagCallError]

/-- A varint whose bytes BLOB holds at CUR (R88, R174, log 4). -/
theorem exec_varint {s : State} {i : Instr} {k w : Nat} {v : BitVec w} (hw : w ≤ 64) (hf : s.fault = false)
    (hi : i.WellFormed) (hrule : i.rule = passVarint k v.toNat) (h : s.cur + (1 + k) ≤ s.blob.length) :
    exec i s = .next { s with cur := s.cur + (1 + k), status := .ok, response := 0x00 :: leBytes 8 v.toNat } := by
  rw [exec_ok hf hi (hrule ▸ passVarint_of_le v.toNat h), read64_toNat v hw]
  rfl

end Machine

/-- Settles O48: each row's rule passes over its value bytes, and a read past BLOB_LEN is the only raise. -/
theorem varintFormsMoveTheCursor : Obligations.VarintFormsMoveTheCursor := by
  unfold Obligations.VarintFormsMoveTheCursor
  intro s hf
  refine ⟨fun v => exec_varint (k := 1) (v := v) (by decide) hf rfl rfl,
    fun v => exec_varint (k := 2) (v := v) (by decide) hf rfl rfl,
    fun v => exec_varint (k := 4) (v := v) (by decide) hf rfl rfl,
    fun v => exec_varint (k := 8) (v := v) (by decide) hf rfl rfl, fun i hi h => ?_⟩
  obtain ⟨v, hrule, hunspecified, hwf⟩ := rule_of_isVarint hi
  rw [encode, List.length_cons, Nat.add_comm _ 1] at h
  have hraise := exec_raise hf hwf (hrule ▸ passVarint_of_lt v h)
  rw [hunspecified, State.afterReader_raise] at hraise
  exact ⟨_, hraise, rfl, rfl, rfl⟩

/-! ### A placed row -/

/-- A row is a varint or a packet, as its first byte is a tag or not (R86 b, R88). -/
theorem decodeTableWord_eq_some {nbits w : Nat} {i : Instr} (h : decodeTableWord nbits w = some i) :
    (∃ tail, decodeVarint (tableBytes nbits w) = .ok (i, tail)) ∨
      ∃ n, ¬ ((tableBytes nbits w).headD 0).toNat ≤ 3 ∧ packetLength ((tableBytes nbits w).headD 0) = some n ∧
        decodeCommand ((tableBytes nbits w).take n) = .ok i := by
  rw [decodeTableWord] at h
  generalize tableBytes nbits w = bytes at h ⊢
  split_ifs at h with hop
  · split at h
    next hdecode =>
      cases h
      exact .inl ⟨_, hdecode⟩
    next => cases h
  · split at h
    next => cases h
    next n hlen =>
      split at h
      next hdecode =>
        cases h
        exact .inr ⟨n, hop, hlen, hdecode⟩
      next => cases h

namespace Machine

/-- A varint placed at CUR is the element that the reader transaction meets (log 4). -/
theorem step_placeRow_varint {s : State} {bytes tail : List Byte} {i : Instr}
    (h : decodeVarint bytes = .ok (i, tail)) :
    step (s.placeRow bytes) = exec i { s with
      cur := min s.cur s.blob.length
      blob := s.blob.take s.cur ++ encode i ++ s.blob.drop (s.cur + (encode i).length) } := by
  obtain ⟨hi, rfl⟩ := decodeVarint_eq_ok.1 h
  obtain ⟨ht, hl, -⟩ := eq_varintForm hi
  have htake : (encode i ++ tail).take (1 + 2 ^ i.opcode.toNat) = encode i :=
    List.take_left' (by rw [encode, List.length_cons, hl, Nat.add_comm])
  rw [State.placeRow]
  change step (if i.opcode.toNat ≤ 3 then _ else _) = _
  rw [if_pos ht]
  change step { s with
    cur := (s.blob.take s.cur).length
    blob := s.blob.take s.cur ++ (encode i ++ tail).take (1 + 2 ^ i.opcode.toNat) ++
      s.blob.drop (s.cur + ((encode i ++ tail).take (1 + 2 ^ i.opcode.toNat)).length)
    pending := .readVarint :: s.pending } = _
  rw [htake, step_of_pending rfl, serve_readVarint_of_decode, List.length_take]
  rw [decodeVarint_eq_ok]
  exact ⟨hi, by rw [List.append_assoc, List.drop_left]⟩

/-- A packet placed as the oldest request is served at once (log 1). -/
theorem step_placeRow_command {s : State} {bytes : List Byte} {i : Instr} {n : Nat}
    (hop : ¬ (bytes.headD 0).toNat ≤ 3) (hlen : packetLength (bytes.headD 0) = some n)
    (h : decodeCommand (bytes.take n) = .ok i) : step (s.placeRow bytes) = exec i s := by
  rw [State.placeRow, if_neg hop, hlen, Option.getD_some, step_of_pending rfl, serve_command_of_decode h]

end Machine

/-- Settles O6: what is placed is what the step decodes. -/
theorem placedRowIsRun : Obligations.PlacedRowIsRun := by
  unfold Obligations.PlacedRowIsRun
  intro s nbits w i h
  obtain ⟨tail, hdecode⟩ | ⟨n, hop, hlen, hdecode⟩ := decodeTableWord_eq_some h
  · obtain ⟨hi, -⟩ := decodeVarint_eq_ok.1 hdecode
    exact ⟨fun hcommand => absurd (hi.symm.trans hcommand) nofun, fun _ => step_placeRow_varint hdecode⟩
  · obtain ⟨hi, -⟩ := decodedPacketsAreEncodings _ _ hdecode
    exact ⟨fun _ => step_placeRow_command hop hlen hdecode,
      fun hvarint => absurd (hi.symm.trans hvarint) nofun⟩

end Sys2Proof
end

section
/-! SUPPORT. The three BS.* commands that return and write nothing (spec/40_bitsequence.md R127 to R129): O30. -/

namespace Sys2Proof

open Machine

/-- Settles O30: the three rules answer the state they got, with what the register holds. -/
theorem atSizeIterReturnAndChangeNothing : Obligations.AtSizeIterReturnAndChangeNothing := by
  unfold Obligations.AtSizeIterReturnAndChangeNothing
  intro r s hf hr
  have hwf : registerProblem r = none := registerProblem_of_lt hr
  refine ⟨fun index hindex => ⟨_, (s.reg r.toNat).getElem?_bits hindex, ?_⟩,
    read64 (s.reg r.toNat).size, length_leBytes 8 _, leNat_read64, exec_ok hf hwf rfl, exec_ok hf hwf rfl⟩
  have hrule : (Instr.bsAt r index).rule s =
      .ok (s, [if (s.reg r.toNat).at index.toNat then 0x01 else 0x00]) :=
    res_bind_ok.2 ⟨(), ensure_eq_ok.2 (decide_eq_true hindex), rfl⟩
  exact exec_ok hf hwf hrule

end Sys2Proof
end

section
/-! SUPPORT. HEF.DESERIALIZE (spec/42_hef_codec.md R185): its rule is cut into parts, and each part says what it
answers from the bytes ahead of the cursor. O53 and O54 follow. -/

namespace Sys2Proof

open Machine Claims

namespace Machine

/-! ### Bound computations -/

theorem ok_bind {α β : Type} (a : α) (f : α → Res β) : (Except.ok a : Res α) >>= f = f a := rfl

theorem error_bind {α β : Type} (e : Halt) (f : α → Res β) : (Except.error e : Res α) >>= f = .error e :=
  rfl

theorem ensure_true (r : Raise) : ensure true r = .ok () := rfl

theorem ensure_false (r : Raise) : ensure false r = .error (.raise r) := rfl

/-! ### The bytes ahead of the cursor -/

/-- The cursor is within BLOB and `rest` is what the reader has not read (R44, R172). -/
structure Ahead (blob : List Byte) (cur : Nat) (rest : List Byte) : Prop where
  cur_le : cur ≤ blob.length
  drop_eq : blob.drop cur = rest

section Ahead

variable {blob l rest : List Byte} {cur k n : Nat}

theorem Ahead.start (blob : List Byte) : Ahead blob 0 blob := ⟨Nat.zero_le _, rfl⟩

theorem Ahead.skip (h : Ahead blob cur (l ++ rest)) (hk : l.length = k) : Ahead blob (cur + k) rest := by
  obtain ⟨hle, hdrop⟩ := h
  have hlen := congrArg List.length hdrop
  rw [List.length_drop, List.length_append] at hlen
  exact ⟨by omega, by rw [← List.drop_drop, hdrop, List.drop_left' hk]⟩

theorem Ahead.skip_one {b : Byte} (h : Ahead blob cur (b :: rest)) : Ahead blob (cur + 1) rest :=
  Ahead.skip (l := [b]) h rfl

theorem Ahead.readBytes_eq (h : Ahead blob cur (l ++ rest)) (hk : l.length = k) :
    readBytes blob cur k = .ok (l, cur + k) := by
  have hread : memRead blob cur k = l := by rw [memRead, h.drop_eq, List.take_left' hk]
  exact readBytes_eq_ok.2 ⟨(h.skip hk).cur_le, hread, rfl⟩

theorem Ahead.readBytes_truncated (h : Ahead blob cur rest) (hk : rest.length < k) :
    readBytes blob cur k = .error (.raise (.call .truncated)) := by
  obtain ⟨hle, hdrop⟩ := h
  have hlen := congrArg List.length hdrop
  rw [List.length_drop] at hlen
  exact readBytes_eq_error.2 ⟨by omega, rfl⟩

theorem Ahead.readBits_eq (h : Ahead blob cur (l ++ rest)) (hn : l.length = ceil8 n) :
    readBits blob cur n = .ok (unpack l n, cur + ceil8 n) := by
  rw [readBits, h.readBytes_eq hn]
  rfl

theorem Ahead.readBits_truncated (h : Ahead blob cur rest) (hn : rest.length < ceil8 n) :
    readBits blob cur n = .error (.raise (.call .truncated)) := by
  rw [readBits, h.readBytes_truncated hn]
  rfl

theorem Ahead.readU8_eq {b : Byte} (h : Ahead blob cur (b :: rest)) : readU8 blob cur = .ok (b, cur + 1) :=
  readU8_of_drop_cons h.drop_eq

theorem Ahead.readVarint_eq {i : Instr} (h : Ahead blob cur rest) (hd : decodeVarint rest = .ok (i, l)) :
    readVarint blob cur = .ok (leNat i.operandBytes, cur + (encode i).length) ∧
      Ahead blob (cur + (encode i).length) l := by
  obtain ⟨-, rfl⟩ := decodeVarint_eq_ok.1 hd
  exact ⟨readVarint_of_decode (h.drop_eq ▸ hd), h.skip rfl⟩

theorem Ahead.readVarint_error {e : CallError} (h : Ahead blob cur rest) (hd : decodeVarint rest = .error e) :
    readVarint blob cur = .error (.raise (.call e)) :=
  readVarint_of_decode_error (h.drop_eq ▸ hd)

end Ahead

/-! ### The rule in three parts -/

/-- Fields 6 and 7, and what the whole container gives (R96, R97, R185). -/
def readData (s : State) (syms lens : List Byte) (codeBits : List Bool) (alphabet whole cur : Nat) :
    Res State := do
  let (rem, cur) ← readU8 s.blob cur
  ensure (decide (rem.toNat ≤ 7)) (.call .remainder)
  ensure (capAllows s.caps.bsCap (8 * whole + rem.toNat)) (.call .capacity)
  let (dataBits, cur) ← readBits s.blob cur (8 * whole + rem.toNat)
  .ok { s with
    cur := cur
    taN := alphabet
    taSym := treeArray syms
    taLen := treeArray lens
    codes := .ofBits codeBits
    data := .ofBits dataBits }

/-- Fields 4 and 5 (R95, R96, R185). -/
def readCodes (s : State) (syms lens : List Byte) (alphabet cur : Nat) : Res State := do
  ensure (capAllows s.caps.bsCap (totalOf lens)) (.call .capacity)
  let (codeBits, cur) ← readBits s.blob cur (totalOf lens)
  let (whole, cur) ← readVarint s.blob cur
  readData s syms lens codeBits alphabet whole cur

/-- Fields 2 and 3 (R93, R94, R185). -/
def readEntries (s : State) (alphabet cur : Nat) : Res State := do
  ensure (decide (alphabet ≤ 256)) (.call .alphabet)
  let (syms, cur) ← readBytes s.blob cur alphabet
  let (lens, cur) ← readBytes s.blob cur alphabet
  readCodes s syms lens alphabet cur

/-- Field 1 and the parts, in field order (R185, R228). -/
theorem hefDeserializeStage_eq (s : State) :
    hefDeserializeStage s = readVarint s.blob 0 >>= fun x => readEntries s x.1 x.2 := by
  unfold hefDeserializeStage readEntries readCodes readData totalOf
  rfl

section Parts

variable {s : State} {syms lens rest : List Byte} {alphabet cur whole : Nat} {codeBits : List Bool}

theorem readEntries_alphabet (h : 256 < alphabet) :
    readEntries s alphabet cur = .error (.raise (.call .alphabet)) := by
  rw [readEntries, decide_eq_false (Nat.not_le.2 h), ensure_false, error_bind]

/-- Symbols cut short, or lengths (R172). -/
theorem readEntries_truncated (ha : alphabet ≤ 256) (h : Ahead s.blob cur rest)
    (hrest : rest.length < 2 * alphabet) :
    readEntries s alphabet cur = .error (.raise (.call .truncated)) := by
  rw [readEntries, decide_eq_true ha, ensure_true, ok_bind]
  rcases Nat.lt_or_ge rest.length alphabet with hsyms | hsyms
  · rw [h.readBytes_truncated hsyms, error_bind]
  · have hlen : (rest.take alphabet).length = alphabet := List.length_take_of_le hsyms
    have hsplit : Ahead s.blob cur (rest.take alphabet ++ rest.drop alphabet) := by
      rwa [List.take_append_drop]
    have hlens : (rest.drop alphabet).length < alphabet := by
      rw [List.length_drop]
      omega
    simp only [hsplit.readBytes_eq hlen, (hsplit.skip hlen).readBytes_truncated hlens, ok_bind, error_bind]

theorem readEntries_ok (ha : alphabet ≤ 256) (h : Ahead s.blob cur (syms ++ lens ++ rest))
    (hsyms : syms.length = alphabet) (hlens : lens.length = alphabet) :
    readEntries s alphabet cur = readCodes s syms lens alphabet (cur + alphabet + alphabet) ∧
      Ahead s.blob (cur + alphabet + alphabet) rest := by
  rw [List.append_assoc] at h
  refine ⟨?_, (h.skip hsyms).skip hlens⟩
  simp only [readEntries, decide_eq_true ha, ensure_true, h.readBytes_eq hsyms, (h.skip hsyms).readBytes_eq hlens,
    ok_bind]

theorem readCodes_capacity (hcap : capAllows s.caps.bsCap (totalOf lens) = false) :
    readCodes s syms lens alphabet cur = .error (.raise (.call .capacity)) := by
  rw [readCodes, hcap, ensure_false, error_bind]

section

variable (hcap : capAllows s.caps.bsCap (totalOf lens) = true)
include hcap

theorem readCodes_truncated (h : Ahead s.blob cur rest) (hrest : rest.length < ceil8 (totalOf lens)) :
    readCodes s syms lens alphabet cur = .error (.raise (.call .truncated)) := by
  rw [readCodes, hcap, ensure_true, ok_bind, h.readBits_truncated hrest, error_bind]

variable {codeBytes : List Byte} (h : Ahead s.blob cur (codeBytes ++ rest))
  (hcodes : codeBytes.length = ceil8 (totalOf lens))
include h hcodes

theorem readCodes_varint_error {e : CallError} (hd : decodeVarint rest = .error e) :
    readCodes s syms lens alphabet cur = .error (.raise (.call e)) := by
  simp only [readCodes, hcap, ensure_true, h.readBits_eq hcodes, (h.skip hcodes).readVarint_error hd, ok_bind,
    error_bind]

theorem readCodes_ok {fieldQ : Instr} {r : List Byte} (hd : decodeVarint rest = .ok (fieldQ, r)) :
    readCodes s syms lens alphabet cur =
        readData s syms lens (unpack codeBytes (totalOf lens)) alphabet (leNat fieldQ.operandBytes)
          (cur + ceil8 (totalOf lens) + (encode fieldQ).length) ∧
      Ahead s.blob (cur + ceil8 (totalOf lens) + (encode fieldQ).length) r := by
  obtain ⟨hread, hahead⟩ := (h.skip hcodes).readVarint_eq hd
  refine ⟨?_, hahead⟩
  simp only [readCodes, hcap, ensure_true, h.readBits_eq hcodes, hread, ok_bind]

end

/-- The sixth field is missing (R172). -/
theorem readData_missing (h : Ahead s.blob cur []) :
    readData s syms lens codeBits alphabet whole cur = .error (.raise (.call .truncated)) := by
  rw [readData, readU8_of_drop_nil h.drop_eq, error_bind]

section

variable {rem : Byte} (h : Ahead s.blob cur (rem :: rest))
include h

theorem readData_remainder (hrem : 7 < rem.toNat) :
    readData s syms lens codeBits alphabet whole cur = .error (.raise (.call .remainder)) := by
  simp only [readData, h.readU8_eq, decide_eq_false (Nat.not_le.2 hrem), ensure_false, ok_bind, error_bind]

variable (hrem : rem.toNat ≤ 7)
include hrem

theorem readData_capacity (hcap : capAllows s.caps.bsCap (8 * whole + rem.toNat) = false) :
    readData s syms lens codeBits alphabet whole cur = .error (.raise (.call .capacity)) := by
  simp only [readData, h.readU8_eq, decide_eq_true hrem, hcap, ensure_true, ensure_false, ok_bind, error_bind]

variable (hcap : capAllows s.caps.bsCap (8 * whole + rem.toNat) = true)
include hcap

theorem readData_truncated (hrest : rest.length < ceil8 (8 * whole + rem.toNat)) :
    readData s syms lens codeBits alphabet whole cur = .error (.raise (.call .truncated)) := by
  simp only [readData, h.readU8_eq, decide_eq_true hrem, hcap, ensure_true, h.skip_one.readBits_truncated hrest,
    ok_bind, error_bind]

theorem readData_ok {dataBytes tail : List Byte} (hrest : rest = dataBytes ++ tail)
    (hdata : dataBytes.length = ceil8 (8 * whole + rem.toNat)) :
    readData s syms lens codeBits alphabet whole cur = .ok { s with
      cur := cur + 1 + ceil8 (8 * whole + rem.toNat)
      taN := alphabet
      taSym := treeArray syms
      taLen := treeArray lens
      codes := .ofBits codeBits
      data := .ofBits (unpack dataBytes (8 * whole + rem.toNat)) } := by
  subst hrest
  simp only [readData, h.readU8_eq, decide_eq_true hrem, hcap, ensure_true, h.skip_one.readBits_eq hdata, ok_bind]

end

end Parts

end Machine

/-- Settles O53: the parts read the fields one after another, and each leaves the next one ahead. -/
theorem hefDeserializeReadsTheContainer : Obligations.HefDeserializeReadsTheContainer := by
  unfold Obligations.HefDeserializeReadsTheContainer
  intro s fieldA fieldQ syms lens codeBytes dataBytes tail rem hf hfits hrem hdata hblob hcapCodes hcapData
  obtain ⟨hA, hQ, hsyms, hlens, ha, hcodes⟩ := hfits
  have hsplit : s.blob = encode fieldA ++ (syms ++ lens ++
      (codeBytes ++ (encode fieldQ ++ rem :: (dataBytes ++ tail)))) := by
    simp [hblob, headBytes]
  obtain ⟨hread, hahead⟩ := (Ahead.start s.blob).readVarint_eq (decodeVarint_eq_ok.2 ⟨hA, hsplit⟩)
  rw [hsyms] at hread
  obtain ⟨hentries, hahead⟩ := readEntries_ok ha hahead rfl hlens
  obtain ⟨hfields, hahead⟩ := readCodes_ok (syms := syms) (alphabet := syms.length) hcapCodes hahead hcodes
    (decodeVarint_eq_ok.2 ⟨hQ, rfl⟩)
  have hstage := hefDeserializeStage_eq s
  rw [hread, ok_bind, hentries, hfields, readData_ok hahead hrem hcapData rfl hdata] at hstage
  refine (exec_ok (i := .hefDeserialize) hf rfl (withoutResult_eq_ok.2 ⟨hstage, rfl⟩)).trans ?_
  have hcur : 0 + (encode fieldA).length + syms.length + syms.length + ceil8 (totalOf lens) +
      (encode fieldQ).length + 1 + ceil8 (8 * leNat fieldQ.operandBytes + rem.toNat) =
      (headBytes fieldA syms lens codeBytes fieldQ rem).length + dataBytes.length := by
    have hcodes : codeBytes.length = ceil8 (totalOf lens) := hcodes
    have hdata : dataBytes.length = ceil8 (8 * leNat fieldQ.operandBytes + rem.toNat) := hdata
    simp only [headBytes, List.length_append, List.length_singleton, hcodes, hdata, hlens]
    omega
  rw [hcur]
  rfl

/-! ### The first defect -/

/-- HEF.DESERIALIZE raises no fault, so a core that is not latched stays so (R224). -/
theorem deserializeFails {s : State} {e : CallError} (hf : s.fault = false)
    (h : hefDeserializeStage s = .error (.raise (.call e))) : DeserializeFails s e := by
  refine ⟨_, exec_raise (i := .hefDeserialize) hf rfl (withoutResult_eq_raise.2 h),
    State.raise_call_status _ e, ?_⟩
  simp only [Instr.unspecified, State.afterHefDeserialize, State.raise_call_fault, State.drawn_fault,
    State.drawData_fault, State.drawCodes_fault, State.drawTa_fault, State.drawCur_fault, hf]

/-- Settles O54: each part fails at its own defects, and hands on when it has none. -/
theorem hefDeserializeRejectsInFieldOrder : Obligations.HefDeserializeRejectsInFieldOrder := by
  unfold Obligations.HefDeserializeRejectsInFieldOrder
  intro s hf
  have hstage := hefDeserializeStage_eq s
  refine ⟨fun e hA => ?_, fun fieldA r1 hA => ?_⟩
  · exact deserializeFails hf (by rw [hstage, (Ahead.start s.blob).readVarint_error hA, error_bind])
  obtain ⟨hread, hahead⟩ := (Ahead.start s.blob).readVarint_eq hA
  rw [hread, ok_bind] at hstage
  refine ⟨fun ha => ?_, fun ha hr1 => ?_, fun syms lens r3 hr1 ha hsyms hlens => ?_⟩
  · exact deserializeFails hf (hstage.trans (readEntries_alphabet ha))
  · exact deserializeFails hf (hstage.trans (readEntries_truncated ha hahead hr1))
  obtain ⟨hentries, hahead⟩ := readEntries_ok ha (hr1 ▸ hahead) hsyms hlens
  rw [hentries] at hstage
  refine ⟨fun hcap => ?_, fun hcap => ⟨fun hr3 => ?_, fun codeBytes r4 hr3 hcodes =>
    ⟨fun e hQ => ?_, fun fieldQ r5 hQ => ?_⟩⟩⟩
  · exact deserializeFails hf (hstage.trans (readCodes_capacity hcap))
  · exact deserializeFails hf (hstage.trans (readCodes_truncated hcap hahead hr3))
  · exact deserializeFails hf (hstage.trans (readCodes_varint_error hcap (hr3 ▸ hahead) hcodes hQ))
  obtain ⟨hfields, hahead⟩ := readCodes_ok (syms := syms) (alphabet := leNat fieldA.operandBytes) hcap
    (hr3 ▸ hahead) hcodes hQ
  rw [hfields] at hstage
  refine ⟨fun hr5 => ?_, fun rem r6 hr5 => ⟨fun hrem => ?_, fun hrem =>
    ⟨fun hcap => ?_, fun hcap hr6 => ?_⟩⟩⟩
  · exact deserializeFails hf (hstage.trans (readData_missing (hr5 ▸ hahead)))
  · exact deserializeFails hf (hstage.trans (readData_remainder (hr5 ▸ hahead) hrem))
  · exact deserializeFails hf (hstage.trans (readData_capacity (hr5 ▸ hahead) hrem hcap))
  · exact deserializeFails hf (hstage.trans (readData_truncated (hr5 ▸ hahead) hrem hcap hr6))

end Sys2Proof
end

section
/-! SUPPORT. HEF.SERIALIZE (spec/42_hef_codec.md R181, R183): when its rule reaches its end and with what, and that
it raises nothing but E_CAPACITY. O52 follows. -/

namespace Sys2Proof

open Machine

/-- The data bytes are the whole ones and one more for the rest (R98). -/
theorem ceil8_eq (n : Nat) : ceil8 n = n / 8 + if 0 < n % 8 then 1 else 0 := by
  rw [ceil8]
  split_ifs <;> omega

namespace Machine

/-! ### Varints that can be written -/

theorem varint_of_lt {v : Nat} (h : v < 2 ^ 64) : ∃ l, varint v = .ok l := by
  rw [varint]
  split_ifs
  · exact ⟨_, rfl⟩
  · exact ⟨_, rfl⟩
  · exact ⟨_, rfl⟩
  · exact ⟨_, rfl⟩
  · omega

theorem varint_of_ge {v : Nat} (h : 2 ^ 64 ≤ v) : varint v = .error (.raise (.call .capacity)) := by
  rw [varint, if_neg (by omega), if_neg (by omega), if_neg (by omega), if_neg (by omega)]

theorem containerBytes_ok {syms lens fieldA fieldQ : List Byte} {dataBits : List Bool} (codeBits : List Bool)
    (hA : varint syms.length = .ok fieldA) (hQ : varint (dataBits.length / 8) = .ok fieldQ) :
    containerBytes syms lens codeBits dataBits =
      .ok (fieldA ++ syms ++ lens ++ pack codeBits ++ fieldQ ++ [BitVec.ofNat 8 (dataBits.length % 8)] ++
        pack dataBits) := by
  simp only [containerBytes, hA, hQ, ok_bind]

/-- A bit count that a varint cannot hold (R90, R183). -/
theorem containerBytes_capacity {syms lens : List Byte} {codeBits dataBits : List Bool}
    (hsyms : syms.length < 2 ^ 64) (hdata : 2 ^ 64 ≤ dataBits.length / 8) :
    containerBytes syms lens codeBits dataBits = .error (.raise (.call .capacity)) := by
  obtain ⟨fieldA, hA⟩ := varint_of_lt hsyms
  simp only [containerBytes, hA, varint_of_ge hdata, ok_bind, error_bind]

/-! ### The codes one after another -/

/-- The codes of a list of symbols, concatenated (R95). -/
def State.codeBits (s : State) (l : List Byte) : List Bool := l.flatMap fun y => (s.codeOf y).bits

theorem State.length_codeBits (s : State) (l : List Byte) :
    (s.codeBits l).length = (l.map fun y => (s.codeOf y).size).sum := by
  rw [State.codeBits, List.length_flatMap]
  simp only [BitSeq.length_bits]

/-- The loop of R181 over CODES. -/
def pushCodes (s : State) (acc : BitSeq) (l : List Byte) : Res BitSeq :=
  l.foldlM (fun acc sym => pushSeqCap s.caps acc (s.codeOf sym)) acc

/-- CODES ends as the concatenation when that fits BS_CAP, and is E_CAPACITY otherwise (R112, R181). -/
theorem pushCodes_eq {s : State} (hs : ∀ y, (s.codeOf y).Wf) (l : List Byte) {acc : BitSeq}
    (hacc : acc.Fits s.caps) :
    pushCodes s acc l =
      if capAllows s.caps.bsCap (acc.bits ++ s.codeBits l).length then .ok (.ofBits (acc.bits ++ s.codeBits l))
      else .error (.raise (.call .capacity)) := by
  induction l generalizing acc with
  | nil =>
    obtain ⟨hwf, hcap⟩ := hacc
    have hbits : acc.bits ++ s.codeBits [] = acc.bits := List.append_nil _
    rw [hbits, BitSeq.length_bits, if_pos hcap, ← hwf.eq_ofBits_bits]
    rfl
  | cons y l ih =>
    have hbits : acc.bits ++ s.codeBits (y :: l) = acc.bits ++ (s.codeOf y).bits ++ s.codeBits l := by
      simp [State.codeBits]
    have hloop : pushCodes s acc (y :: l) = pushSeqCap s.caps acc (s.codeOf y) >>= fun acc => pushCodes s acc l :=
      List.foldlM_cons
    rw [hbits, hloop, pushSeqCap, hacc.1.pushSeq_eq (hs y)]
    by_cases hcap : capAllows s.caps.bsCap (acc.size + (s.codeOf y).size) = true
    · have hfits : (BitSeq.ofBits (acc.bits ++ (s.codeOf y).bits)).Fits s.caps :=
        BitSeq.fits_ofBits (by simpa using hcap)
      rw [if_pos hcap, ok_bind, ih hfits, BitSeq.bits_ofBits]
    · have hlonger : ¬ capAllows s.caps.bsCap (acc.bits ++ (s.codeOf y).bits ++ s.codeBits l).length = true :=
        fun h => hcap (capAllows_mono (by simp) h)
      rw [if_neg hcap, if_neg hlonger, error_bind]

/-! ### The rule -/

/-- No valid code is longer than a length field holds (R94, R183). -/
abbrev State.ShortCodes (s : State) : Prop := ∀ y, s.validOf y = true → (s.codeOf y).size ≤ 255

/-- The lengths of the entries (R94). -/
def State.codeLens (s : State) : List Byte := s.alphabet.map fun y => BitVec.ofNat 8 (s.codeOf y).size

/-- The last two statements of R181: BLOB_CAP is checked, then everything is written. -/
def storeContainer (s : State) (codes : BitSeq) (buf : List Byte) : Res State := do
  ensure (capAllows s.caps.blobCap buf.length) (.call .capacity)
  .ok { s with
    taN := s.alphabet.length
    taSym := treeArray s.alphabet
    taLen := treeArray s.codeLens
    codes := codes
    blob := buf }

theorem storeContainer_ok {s : State} {codes : BitSeq} {buf : List Byte}
    (h : capAllows s.caps.blobCap buf.length = true) :
    storeContainer s codes buf = .ok { s with
      taN := s.alphabet.length
      taSym := treeArray s.alphabet
      taLen := treeArray s.codeLens
      codes := codes
      blob := buf } := by
  rw [storeContainer, h, ensure_true, ok_bind]

theorem storeContainer_capacity {s : State} {codes : BitSeq} {buf : List Byte}
    (h : capAllows s.caps.blobCap buf.length = false) :
    storeContainer s codes buf = .error (.raise (.call .capacity)) := by
  rw [storeContainer, h, ensure_false, error_bind]

theorem hefSerializeStage_bind (s : State) :
    hefSerializeStage s =
      ensure (s.alphabet.all fun sym => decide ((s.codeOf sym).size ≤ 255)) (.call .capacity) >>= fun _ =>
        pushCodes s .empty s.alphabet >>= fun codes =>
          containerBytes s.alphabet s.codeLens codes.bits s.data.bits >>= storeContainer s codes := rfl

/-- HEF.SERIALIZE in the order of its checks (R181, R183). -/
theorem hefSerializeStage_eq {s : State} (hs : ∀ y, (s.codeOf y).Wf) :
    hefSerializeStage s =
      if s.ShortCodes ∧ capAllows s.caps.bsCap (s.codeBits s.alphabet).length = true then
        containerBytes s.alphabet s.codeLens (s.codeBits s.alphabet) s.data.bits >>=
          storeContainer s (.ofBits (s.codeBits s.alphabet))
      else .error (.raise (.call .capacity)) := by
  have hall : (s.alphabet.all fun sym => decide ((s.codeOf sym).size ≤ 255)) = decide s.ShortCodes := by
    rw [Bool.eq_iff_iff]
    simp
  have hbits : BitSeq.empty.bits ++ s.codeBits s.alphabet = s.codeBits s.alphabet := rfl
  rw [hefSerializeStage_bind, hall, pushCodes_eq hs _ (BitSeq.fits_empty _), hbits]
  by_cases hshort : s.ShortCodes
  · rw [decide_eq_true hshort, ensure_true, ok_bind]
    by_cases hcap : capAllows s.caps.bsCap (s.codeBits s.alphabet).length = true
    · rw [if_pos hcap, if_pos ⟨hshort, hcap⟩, ok_bind, BitSeq.bits_ofBits]
    · rw [if_neg hcap, if_neg fun h => hcap h.2, error_bind]
  · rw [decide_eq_false hshort, ensure_false, error_bind, if_neg fun h => hshort h.1]

theorem State.RegsWf.codeOf {s : State} (h : s.RegsWf) (y : Byte) : (s.codeOf y).Wf := by
  have hreg : s.reg y.toNat = s.codeOf y := dif_pos y.isLt
  exact hreg ▸ (h ⟨y.toNat, y.isLt.trans (by decide)⟩).1

/-- On E_CAPACITY BLOB is as it was (R183, R229). -/
theorem exec_hefSerialize_capacity {s : State} (hf : s.fault = false)
    (h : hefSerializeStage s = .error (.raise (.call .capacity))) :
    ∃ t, exec .hefSerialize s = .next t ∧ t.status = .callError .capacity ∧ t.blob = s.blob := by
  refine ⟨_, exec_raise (i := .hefSerialize) hf rfl (withoutResult_eq_raise.2 h),
    State.raise_call_status _ _, ?_⟩
  simp only [Instr.unspecified, State.afterHefSerialize, State.raise_blob, State.drawn_blob, State.drawCodes_blob,
    State.drawTa_blob]

end Machine

/-- Settles O52: past the checks of the codes the container is built, and BLOB_CAP decides. -/
theorem hefSerializeWritesTheContainer : Obligations.HefSerializeWritesTheContainer := by
  unfold Obligations.HefSerializeWritesTheContainer
  intro s hf hregs
  have hstage := hefSerializeStage_eq hregs.codeOf
  have hsyms : s.alphabet.length < 2 ^ 64 := s.alphabet_length_le.trans_lt (by decide)
  refine ⟨⟨s.alphabet_sorted, s.mem_alphabet⟩, fun hshort hsize hcap => ?_, fun ⟨y, hy, hlong⟩ => ?_,
    fun hcap => ?_, fun hsize => ?_⟩
  · obtain ⟨fieldA, hA⟩ := varint_of_lt hsyms
    obtain ⟨fieldQ, hQ⟩ := varint_of_lt hsize
    rw [← BitSeq.length_bits] at hQ
    have hbuf := containerBytes_ok (lens := s.codeLens) (s.codeBits s.alphabet) hA hQ
    rw [BitSeq.length_bits] at hQ hbuf
    rw [if_pos ⟨hshort, hcap⟩, hbuf, ok_bind] at hstage
    refine ⟨fieldA, fieldQ, _, hA, hQ, rfl, ?_, fun hblob => ?_, fun hblob => ?_⟩
    · have hcodes : (s.alphabet.flatMap fun y => (s.codeOf y).bits).length =
          (s.alphabet.map fun y => (s.codeOf y).size).sum := s.length_codeBits s.alphabet
      simp only [List.length_append, List.length_map, List.length_singleton, length_pack, hcodes,
        BitSeq.length_bits, ceil8_eq s.data.size]
      rw [ceil8]
      omega
    · exact exec_ok (i := .hefSerialize) hf rfl
        (withoutResult_eq_ok.2 ⟨hstage.trans (storeContainer_ok hblob), rfl⟩)
    · exact exec_hefSerialize_capacity hf (hstage.trans (storeContainer_capacity hblob))
  · exact exec_hefSerialize_capacity hf (hstage.trans (if_neg fun h => Nat.not_le.2 hlong (h.1 y hy)))
  · exact exec_hefSerialize_capacity hf (hstage.trans (if_neg fun h => absurd (h.2.symm.trans hcap) (by decide)))
  · refine exec_hefSerialize_capacity hf (hstage.trans ?_)
    rw [containerBytes_capacity hsyms (by rwa [BitSeq.length_bits]), error_bind, ite_self]

end Sys2Proof
end

section
/-! SUPPORT. The laws of the bit sequences (spec/40_bitsequence.md R111, R119, R126, R130, R131) follow from the `mk`
that each block-level algorithm gives: O22 to O26. -/

namespace Sys2Proof

/-- Settles O22: one lemma per algorithm. -/
theorem blockAlgorithmsGiveTheAbstractResult : Obligations.BlockAlgorithmsGiveTheAbstractResult := by
  unfold Obligations.BlockAlgorithmsGiveTheAbstractResult
  intro v hv
  exact ⟨hv.pushBit_eq, fun y _ hn => hv.pushByte_eq y hn, fun _ ho => hv.pushSeq_eq ho, fun _ => hv.pop_eq,
    fun _ hi => v.getElem?_bits hi⟩

/-- Bits pushed one after another are appended in their order. -/
theorem BitSeq.Wf.foldl_pushBit_eq {v : BitSeq} (h : v.Wf) (l : List Bool) :
    l.foldl BitSeq.pushBit v = .ofBits (v.bits ++ l) := by
  induction l generalizing v with
  | nil => simpa using h.eq_ofBits_bits
  | cons b l ih =>
    rw [List.foldl_cons, h.pushBit_eq, ih (BitSeq.wf_ofBits _), BitSeq.bits_ofBits, List.append_assoc,
      List.singleton_append]

/-- Settles O23: both append the top bits of the byte. -/
theorem pushByteIsRepeatedPushBit : Obligations.PushByteIsRepeatedPushBit := by
  unfold Obligations.PushByteIsRepeatedPushBit
  intro v y n hv hn
  rw [hv.pushByte_eq y hn, ← hv.foldl_pushBit_eq, pushedBits, List.foldl_map]

/-- Settles O24: the bits are those of `v` again, and a well-formed value is `mk` of its bits. -/
theorem popUndoesPushBit : Obligations.PopUndoesPushBit := by
  unfold Obligations.PopUndoesPushBit
  intro v b hv
  rw [hv.pushBit_eq, (BitSeq.wf_ofBits _).pop_eq, BitSeq.bits_ofBits, List.dropLast_concat, ← hv.eq_ofBits_bits]

/-- Settles O25: the size of `mk` is the length of its list. -/
theorem sizesAddUp : Obligations.SizesAddUp := by
  unfold Obligations.SizesAddUp
  intro v o hv ho
  refine ⟨fun b => ?_, fun y n hn => ?_, ?_, fun _ => ?_⟩
  · rw [hv.pushBit_eq]
    simp
  · rw [hv.pushByte_eq y hn]
    simp
  · rw [hv.pushSeq_eq ho]
    simp
  · rw [hv.pop_eq]
    simp

/-- R131 at every index, past the end included. -/
theorem BitSeq.Wf.at_pushSeq {a b : BitSeq} (ha : a.Wf) (hb : b.Wf) (i : Nat) :
    (a.pushSeq b).at i = if i < a.size then a.at i else b.at (i - a.size) := by
  rw [ha.pushSeq_eq hb, BitSeq.at_eq_blockBit, BitSeq.blockBit_ofBits, getD_append_bits, BitSeq.length_bits,
    ha.getD_bits, hb.getD_bits]
  rfl

/-- Settles O26: the two ranges of the index are the two branches. -/
theorem concatenationKeepsBothOperands : Obligations.ConcatenationKeepsBothOperands := by
  unfold Obligations.ConcatenationKeepsBothOperands
  intro a b ha hb
  refine ⟨fun i hi => ?_, fun i hi _ => ?_⟩
  · rw [ha.at_pushSeq hb, if_pos hi]
  · rw [ha.at_pushSeq hb, if_neg (Nat.not_lt.2 hi)]

end Sys2Proof
end

section
/-! SUPPORT. The BS.* commands that write a register (spec/40_bitsequence.md R112, R116 to R125): a push is one
register write checked against BS_CAP, and a broken precondition is a fault. O28, O29, O31 and O32 follow. -/

namespace Sys2Proof

open Machine Claims

namespace Machine

/-! ### Asserts -/

theorem ensure_bind_of {α : Type} {p : Prop} [Decidable p] (h : p) (r : Raise) (f : Unit → Res α) :
    ensure (decide p) r >>= f = f () := by
  rw [decide_eq_true h, ensure_true, ok_bind]

theorem ensure_bind_of_not {α : Type} {p : Prop} [Decidable p] (h : ¬ p) (r : Raise) (f : Unit → Res α) :
    ensure (decide p) r >>= f = .error (.raise r) := by
  rw [decide_eq_false h, ensure_false, error_bind]

/-! ### The rules of the pushes -/

/-- Register `r` written with `v`, a value of `n` bits, or E_CAPACITY (R112). -/
def State.setRegCap (s : State) (r n : Nat) (v : BitSeq) : Res (State × List Byte) :=
  if capAllows s.caps.bsCap n then .ok (s.setReg r v, []) else .error (.raise (.call .capacity))

theorem rule_bsPushBit (r : BitVec 16) (bit : Byte) (s : State) :
    (Instr.bsPushBit r bit).rule s =
      s.setRegCap r.toNat ((s.reg r.toNat).size + 1) ((s.reg r.toNat).pushBit (decide (bit.toNat = 1))) := by
  rw [Instr.rule, withoutResult, pushBitCap, State.setRegCap]
  split_ifs <;> rfl

theorem rule_bsPushByte (r : BitVec 16) (y : Byte) {n : Byte} (hn : n.toNat ≤ 8) (s : State) :
    (Instr.bsPushByte r y n).rule s =
      s.setRegCap r.toNat ((s.reg r.toNat).size + n.toNat) ((s.reg r.toNat).pushByte y n.toNat) := by
  rw [Instr.rule, withoutResult, ensure_bind_of hn, pushByteCap, State.setRegCap]
  split_ifs <;> rfl

theorem rule_bsPushSeq (r o : BitVec 16) (s : State) :
    (Instr.bsPushSeq r o).rule s =
      s.setRegCap r.toNat ((s.reg r.toNat).size + (s.reg o.toNat).size)
        ((s.reg r.toNat).pushSeq (s.reg o.toNat)) := by
  rw [Instr.rule, withoutResult, pushSeqCap, State.setRegCap]
  split_ifs <;> rfl

/-! ### Legal operands -/

theorem wellFormed_bsPushBit {r : BitVec 16} {bit : Byte} (hr : r.toNat < 263) (hbit : bit.toNat ≤ 1) :
    (Instr.bsPushBit r bit).WellFormed := by
  simp [Instr.WellFormed, Instr.problem, registerProblem_of_lt hr, hbit]

theorem wellFormed_bsPushSeq {r o : BitVec 16} (hr : r.toNat < 263) (ho : o.toNat < 263) :
    (Instr.bsPushSeq r o).WellFormed := by
  simp [Instr.WellFormed, Instr.problem, registerProblem_of_lt hr, registerProblem_of_lt ho]

/-! ### What a command that leaves nothing open ends with -/

/-- A fault over an unlatched state records its cause (R225). -/
theorem State.raise_fault_of_unlatched {s : State} (hf : s.fault = false) (f : FaultCode) :
    s.raise (.fault f) = faultAfter s f f.byte := by
  simp [State.raise, State.flagFault, faultAfter, hf]

section Command

variable {i : Instr} {s : State} (hf : s.fault = false) (hi : i.WellFormed)
include hf hi

theorem exec_callError {e : CallError} (hkeep : i.unspecified s = s) (hrule : i.rule s = .error (.raise (.call e))) :
    exec i s = .next (callErrorAfter s e e.byte) := by
  rw [exec_raise hf hi hrule, hkeep]
  rfl

theorem exec_fault {f : FaultCode} (hkeep : i.unspecified s = s) (hrule : i.rule s = .error (.raise (.fault f))) :
    exec i s = .next (faultAfter s f f.byte) := by
  rw [exec_raise hf hi hrule, hkeep, State.raise_fault_of_unlatched hf]

theorem exec_setReg {r : Nat} {v : BitSeq} (hr : r < 263) (hrule : i.rule s = .ok (s.setReg r v, [])) :
    ∃ t, exec i s = .next t ∧ WroteRegister s t r v :=
  ⟨_, exec_ok hf hi hrule, wroteRegister_finish_setReg s hr v⟩

theorem exec_setRegCap {r n : Nat} {v : BitSeq} (hr : r < 263) (hrule : i.rule s = s.setRegCap r n v)
    (hcap : capAllows s.caps.bsCap n = true) : ∃ t, exec i s = .next t ∧ WroteRegister s t r v :=
  exec_setReg hf hi hr (hrule.trans (if_pos hcap))

/-- A push of too many bits leaves even its own register (R112). -/
theorem exec_setRegCap_capacity {r n c : Nat} {v : BitSeq} (hkeep : i.unspecified s = s)
    (hrule : i.rule s = s.setRegCap r n v) (hc : s.caps.bsCap = some c) (hn : c < n) :
    exec i s = .next (callErrorAfter s .capacity 0x05) := by
  have hcap : ¬ capAllows s.caps.bsCap n = true := by simp [hc, capAllows, hn]
  exact exec_callError hf hi hkeep (hrule.trans (if_neg hcap))

end Command

end Machine

/-- Settles O28: each push is one checked register write of what O22 says. -/
theorem pushesAppendToOneRegister : Obligations.PushesAppendToOneRegister := by
  unfold Obligations.PushesAppendToOneRegister
  intro r o s hf hr hv
  refine ⟨fun bit hbit hcap => ?_, fun y n hn hcap => ?_, fun ho hov hcap => ?_⟩
  · rw [← hv.pushBit_eq]
    exact exec_setRegCap hf (wellFormed_bsPushBit hr hbit) hr (rule_bsPushBit r bit s) hcap
  · rw [← pushedBits, ← hv.pushByte_eq y hn]
    exact exec_setRegCap (i := .bsPushByte r y n) hf (registerProblem_of_lt hr) hr
      (rule_bsPushByte r y hn s) hcap
  · rw [← hv.pushSeq_eq hov]
    exact exec_setRegCap hf (wellFormed_bsPushSeq hr ho) hr (rule_bsPushSeq r o s) hcap

/-- Settles O29: past its assert POP is one register write. -/
theorem popDropsTheLastBit : Obligations.PopDropsTheLastBit := by
  unfold Obligations.PopDropsTheLastBit
  intro r s hf hr hv hsize
  have hrule : (Instr.bsPop r).rule s = .ok (s.setReg r.toNat (s.reg r.toNat).pop, []) := by
    rw [Instr.rule, withoutResult_eq_ok, ensure_bind_of hsize]
    exact ⟨rfl, rfl⟩
  rw [← hv.pop_eq]
  exact exec_setReg (i := .bsPop r) hf (registerProblem_of_lt hr) hr hrule

/-- Settles O31: the first statement of each rule is the assert that fails. -/
theorem bitSequencePreconditionsLatch : Obligations.BitSequencePreconditionsLatch := by
  unfold Obligations.BitSequencePreconditionsLatch
  intro r s hf hr
  have hwf : registerProblem r = none := registerProblem_of_lt hr
  refine ⟨fun hsize => ?_, fun index hindex => ?_, fun y n hn => ?_⟩
  · refine exec_fault (i := .bsPop r) hf hwf rfl ?_
    rw [Instr.rule, withoutResult_eq_raise]
    exact ensure_bind_of_not (Nat.not_lt.2 hsize.le) _ _
  · refine exec_fault (i := .bsAt r index) hf hwf rfl ?_
    exact ensure_bind_of_not (Nat.not_lt.2 hindex) _ _
  · refine exec_fault (i := .bsPushByte r y n) hf hwf rfl ?_
    rw [Instr.rule, withoutResult_eq_raise]
    exact ensure_bind_of_not (Nat.not_le.2 hn) _ _

/-- Settles O32: the check against BS_CAP comes before the write. -/
theorem pushPastCapacityIsACallError : Obligations.PushPastCapacityIsACallError := by
  unfold Obligations.PushPastCapacityIsACallError
  intro r o s c hf hr hc
  refine ⟨fun bit hbit hover => ?_, fun y n hn hover => ?_, fun ho hover => ?_⟩
  · exact exec_setRegCap_capacity hf (wellFormed_bsPushBit hr hbit) rfl (rule_bsPushBit r bit s) hc hover
  · exact exec_setRegCap_capacity (i := .bsPushByte r y n) hf (registerProblem_of_lt hr) rfl
      (rule_bsPushByte r y hn s) hc hover
  · exact exec_setRegCap_capacity hf (wellFormed_bsPushSeq hr ho) rfl (rule_bsPushSeq r o s) hc hover

end Sys2Proof
end

section
/-! SUPPORT. FREQ.COUNT, TREE.INIT (spec/41_codetree.md R140, R152): one pass over IN and one constant arena. O33 and
O39 follow. -/

namespace Sys2Proof

open Machine

namespace Machine

/-! ### Commands without result bytes -/

/-- A command whose stage reaches its end (R84, R227). -/
theorem exec_stage_ok {i : Instr} {stage : State → Res State} {s t : State} (hrule : i.rule = withoutResult stage)
    (hf : s.fault = false) (hi : i.WellFormed) (h : stage s = .ok t) : exec i s = .next (t.finish []) :=
  exec_ok hf hi (by rw [hrule, withoutResult_eq_ok]; exact ⟨h, rfl⟩)

/-- A command whose stage raises (R224, R225, R229). -/
theorem exec_stage_raise {i : Instr} {stage : State → Res State} {s : State} {r : Raise}
    (hrule : i.rule = withoutResult stage) (hf : s.fault = false) (hi : i.WellFormed)
    (h : stage s = .error (.raise r)) : exec i s = .next ((i.unspecified s).raise r) :=
  exec_raise hf hi (by rw [hrule, withoutResult_eq_raise]; exact h)

/-! ### Counting -/

theorem getElem_countSymbol (freq : Vector Nat 256) (sym : Byte) (i : Nat) (hi : i < 256) :
    (countSymbol freq sym)[i] = freq[i] + if sym = BitVec.ofNat 8 i then 1 else 0 := by
  have hsym : sym.toNat = i ↔ sym = BitVec.ofNat 8 i := by
    rw [← BitVec.toNat_inj, BitVec.toNat_ofNat, Nat.mod_eq_of_lt hi]
  rw [countSymbol, Vector.getElem_set]
  split_ifs with h1 h2 h2
  · subst h1
    rfl
  · exact absurd (hsym.1 h1) h2
  · exact absurd (hsym.2 h2) h1
  · rfl

theorem getElem_foldl_countSymbol (l : List Byte) (freq : Vector Nat 256) (i : Nat) (hi : i < 256) :
    (l.foldl countSymbol freq)[i] = freq[i] + l.count (BitVec.ofNat 8 i) := by
  induction l generalizing freq with
  | nil => rfl
  | cons sym l ih =>
    rw [List.foldl_cons, ih, getElem_countSymbol, List.count_cons, Nat.add_assoc, Nat.add_comm (l.count _)]
    simp only [beq_iff_eq]

theorem sum_countSymbol (freq : Vector Nat 256) (sym : Byte) :
    (countSymbol freq sym).toList.sum = freq.toList.sum + 1 := by
  have hlt : sym.toNat < freq.toList.length := by simpa using sym.isLt
  have hsplit := List.sum_take_add_sum_drop freq.toList sym.toNat
  rw [List.drop_eq_getElem_cons hlt, List.sum_cons] at hsplit
  rw [countSymbol, Vector.toList_set, List.sum_set, if_pos hlt]
  simp only [Vector.getElem_toList] at hsplit ⊢
  omega

theorem sum_foldl_countSymbol (l : List Byte) (freq : Vector Nat 256) :
    (l.foldl countSymbol freq).toList.sum = freq.toList.sum + l.length := by
  induction l generalizing freq with
  | nil => rfl
  | cons sym l ih =>
    rw [List.foldl_cons, ih, sum_countSymbol, List.length_cons]
    omega

/-- The counters of FREQ.COUNT over a list of symbols (R140). -/
def countAll (l : List Byte) : Vector Nat 256 := l.foldl countSymbol (Vector.replicate 256 0)

theorem freqCountStage_eq (s : State) : freqCountStage s = .ok { s with freq := countAll s.inBuf } := rfl

theorem getElem_countAll (l : List Byte) (i : Nat) (hi : i < 256) :
    (countAll l)[i] = l.count (BitVec.ofNat 8 i) := by
  rw [countAll, getElem_foldl_countSymbol, Vector.getElem_replicate, Nat.zero_add]

theorem sum_countAll (l : List Byte) : (countAll l).toList.sum = l.length := by
  rw [countAll, sum_foldl_countSymbol, Vector.toList_replicate, List.sum_replicate, smul_zero, Nat.zero_add]

end Machine

/-- Settles O33: one turn of the loop adds 1 to one counter. -/
theorem freqCountCountsOccurrences : Obligations.FreqCountCountsOccurrences := by
  unfold Obligations.FreqCountCountsOccurrences
  intro s hf
  exact ⟨countAll s.inBuf, exec_stage_ok (i := .freqCount) rfl hf rfl (freqCountStage_eq s),
    fun y => getElem_countAll s.inBuf y y.isLt, sum_countAll s.inBuf⟩

/-- Settles O39: the stage has one statement. -/
theorem treeInitLeavesTheBareRoot : Obligations.TreeInitLeavesTheBareRoot := by
  unfold Obligations.TreeInitLeavesTheBareRoot
  intro s hf
  exact exec_stage_ok (i := .treeInit) rfl hf rfl rfl

end Sys2Proof
end

section
/-! SUPPORT. TREE.INSERT's and TREE.FROM_TABLE's conflicts (spec/41_codetree.md R153 to R156): a code that meets a
leaf, or ends above one, is F_TABLE_CONFLICT. O41 and O43 follow. -/

namespace Sys2Proof

open Machine Claims

/-! ### One insertion -/

/-- A leaf on the path of the code, its end included (R153). -/
theorem insertCode_leaf_conflict {a : Arena} {root : Nat} {p code : List Bool} {y z : Byte}
    (hroot : a.root = some root) (hp : p <+: code) (hleaf : LeafAt a root p z) :
    insertCode a y code = .error (.raise (.fault .tableConflict)) := by
  obtain ⟨q, rfl⟩ := hp
  obtain ⟨j, f, hdescend, hj⟩ := hleaf
  simp only [insertCode, hroot, walkPath_descend hdescend]
  cases q with
  | nil => simp only [walkPath, ok_bind, hj]
  | cons b q => simp only [walkPath, hj, error_bind]

/-- The code ends at a node that has a child (R153). -/
theorem insertCode_inner_conflict {a : Arena} {root : Nat} {code : List Bool} {y : Byte} {l r : Option Nat}
    (hroot : a.root = some root) (hinner : InnerAt a root code l r) (hchild : l ≠ none ∨ r ≠ none) :
    insertCode a y code = .error (.raise (.fault .tableConflict)) := by
  obtain ⟨j, f, hdescend, hj⟩ := hinner
  have hwalk := walkPath_descend hdescend []
  rw [List.append_nil] at hwalk
  simp only [insertCode, hroot, hwalk, walkPath, ok_bind, hj]
  cases l <;> cases r <;> simp_all

theorem treeInsertStage_error {s : State} {y : Byte} {code : BitSeq} {h : Halt}
    (hins : insertCode s.arena y code.bits = .error h) : treeInsertStage y code s = .error h := by
  rw [treeInsertStage, hins, error_bind]

/-- Settles O41: the walk, or what follows it, raises before anything is written. -/
theorem treeInsertConflictsLatch : Obligations.TreeInsertConflictsLatch := by
  unfold Obligations.TreeInsertConflictsLatch
  intro s y r hf hr
  have hraise : ∀ f, insertCode s.arena y (s.reg r.toNat).bits = .error (.raise (.fault f)) →
      exec (.treeInsert y r) s = .next (faultAfter s f f.byte) := fun f hins =>
    exec_fault (i := .treeInsert y r) hf (registerProblem_of_lt hr) rfl
      (by rw [Instr.rule, withoutResult_eq_raise, treeInsertStage_error hins])
  refine ⟨fun hroot => hraise .noRoot ?_, fun root hroot => ⟨fun ⟨p, z, hp, hleaf⟩ => hraise .tableConflict ?_,
    fun ⟨l, k, hinner, hchild⟩ => hraise .tableConflict ?_⟩⟩
  · simp only [insertCode, hroot]
  · exact insertCode_leaf_conflict hroot hp hleaf
  · exact insertCode_inner_conflict hroot hinner hchild

/-! ### A table with a conflict -/

/-- Where a list stops being pairwise related. -/
theorem exists_split_of_not_pairwise {α : Type} {R : α → α → Prop} {l : List α} (h : ¬ l.Pairwise R) :
    ∃ T y rest, l = T ++ y :: rest ∧ T.Pairwise R ∧ ¬ ∀ z ∈ T, R z y := by
  induction l using List.reverseRecOn with
  | nil => exact absurd List.Pairwise.nil h
  | append_singleton l a ih =>
    by_cases hl : l.Pairwise R
    · refine ⟨l, a, [], rfl, hl, fun hall => h ?_⟩
      exact List.pairwise_append.2 ⟨hl, List.pairwise_singleton R a, by simpa using hall⟩
    · obtain ⟨T, y, rest, rfl, hT, hy⟩ := ih hl
      exact ⟨T, y, rest ++ [a], by simp, hT, hy⟩

/-- A code not apart from the entries of a tree does not go into it (R153, R156). -/
theorem Built.insert_conflict {code : Byte → List Bool} {T : List Byte} {a : Arena} (h : Built code T a) {y : Byte}
    (hy : ¬ Apart code T y) : insertCode a y (code y) = .error (.raise (.fault .tableConflict)) := by
  obtain ⟨z, hz, hclash⟩ : ∃ z ∈ T, code z <+: code y ∨ code y <+: code z := by
    by_contra hno
    exact hy fun z hz => not_or.1 fun hor => hno ⟨z, hz, hor⟩
  have hleaf : LeafAt a 0 (code z) z := (h.leaf _ _).2 ⟨hz, rfl⟩
  rcases hclash with hpre | ⟨q, hq⟩
  · exact insertCode_leaf_conflict h.root_eq hpre hleaf
  cases q with
  | nil => exact insertCode_leaf_conflict h.root_eq (by rw [← hq, List.append_nil]) hleaf
  | cons b q =>
    obtain ⟨k, f, hk, -⟩ := hleaf
    rw [← hq, Arena.descend_append] at hk
    obtain ⟨j, hj, hk⟩ := Option.bind_eq_some_iff.1 hk
    rw [Arena.descend_cons] at hk
    obtain ⟨c, hc, -⟩ := Option.bind_eq_some_iff.1 hk
    obtain ⟨n, hn, hc⟩ := Option.bind_eq_some_iff.1 hc
    cases n with
    | leaf => cases hc
    | internal l r g =>
      refine insertCode_inner_conflict h.root_eq ⟨j, g, hj, hn⟩ ?_
      cases b
      · exact .inl fun hl => by simp [Node.child, hl] at hc
      · exact .inr fun hr => by simp [Node.child, hr] at hc

theorem insertEntries_append (c : Byte → BitSeq) (l l' : List Byte) (s : State) :
    insertEntries c (l ++ l') s = insertEntries c l s >>= insertEntries c l' :=
  List.foldlM_append

/-- Fewer entries have fewer prefixes. -/
theorem TooManyNodes.mono {code : Byte → List Bool} {T T' : List Byte} (h : TooManyNodes code T) (hT : T ⊆ T') :
    TooManyNodes code T' := by
  obtain ⟨ps, hnodup, hps, hlen⟩ := h
  refine ⟨ps, hnodup, fun p hp => ?_, hlen⟩
  obtain ⟨hne, y, hy, hpre⟩ := hps p hp
  exact ⟨hne, y, hT hy, hpre⟩

/-- TREE.FROM_TABLE on a table with a conflict: the first insertion that meets one raises, or NODE_CAP is too
small for the entries before it (R155, R156). -/
theorem treeFromTableStage_of_not_prefixFree {s : State} (h : ¬ PrefixFree s) :
    treeFromTableStage s = .error (.raise (.fault .tableConflict)) ∨
      (treeFromTableStage s = .error (.raise (.call .capacity)) ∧
        TooManyNodes (bitsOf s.codeOf) s.alphabet) := by
  have hnot : ¬ s.alphabet.Pairwise fun z y =>
      ¬ bitsOf s.codeOf z <+: bitsOf s.codeOf y ∧ ¬ bitsOf s.codeOf y <+: bitsOf s.codeOf z := by
    intro hpair
    have hsymm : Std.Symm fun z y =>
        ¬ bitsOf s.codeOf z <+: bitsOf s.codeOf y ∧ ¬ bitsOf s.codeOf y <+: bitsOf s.codeOf z :=
      ⟨fun _ _ => And.symm⟩
    refine h fun y z hy hz hne => (hpair.forall ?_ ?_ hne).1
    · exact (State.mem_alphabet s y).2 hy
    · exact (State.mem_alphabet s z).2 hz
  obtain ⟨T, y, rest, hsplit, hT, hy⟩ := exists_split_of_not_pairwise hnot
  have hstage : treeFromTableStage s = insertEntries s.codeOf s.alphabet { s with arena := bareRoot } := rfl
  have hbuilt := insertEntries_built s.codeOf s T (T := []) (built_bareRoot _) hT
  rw [hstage, hsplit, insertEntries_append]
  rcases hbuilt with ⟨a, hins, hbuilt⟩ | ⟨hins, hmany⟩
  · rw [hins, ok_bind, insertEntries_cons, treeInsertStage_error (hbuilt.insert_conflict hy)]
    exact .inl rfl
  · rw [hins, error_bind]
    exact .inr ⟨rfl, hmany.mono (by simp)⟩

/-- Settles O43: a conflict is met, whatever was inserted before it. -/
theorem fromTableConflictLatches : Obligations.FromTableConflictLatches := by
  unfold Obligations.FromTableConflictLatches
  intro s _ hf hfree
  rcases treeFromTableStage_of_not_prefixFree hfree with hstage | ⟨hstage, hmany⟩
  · have hexec := exec_raise (i := .treeFromTable) hf rfl (withoutResult_eq_raise.2 hstage)
    exact ⟨fun _ => ⟨_, hexec, rfl, rfl⟩, _, hexec, .inl rfl⟩
  · have hexec := exec_raise (i := .treeFromTable) hf rfl (withoutResult_eq_raise.2 hstage)
    exact ⟨fun hfits => absurd hfits (tooManyNodes_alphabet_iff.1 hmany), _, hexec, .inr rfl⟩

end Sys2Proof
end

section
/-! SUPPORT. TREE.DECODE (spec/41_codetree.md R157 to R160): the walk emits the symbol of each path to a leaf and
starts again at the root. O44 and O45 follow. -/

namespace Sys2Proof

open Machine Claims

/-! ### The walk -/

/-- A path that leads to an internal node emits nothing (R157). -/
theorem decodeWalk_inner {a : Arena} {root i j f : Nat} {p : List Bool} {l r : Option Nat} (rest : List Bool)
    (hdescend : a.descend i p = some j) (hj : a.nodes[j]? = some (.internal l r f)) :
    decodeWalk a.nodes root i (p ++ rest) = decodeWalk a.nodes root j rest := by
  induction p generalizing i with
  | nil =>
    rw [Arena.descend_nil (Arena.descend_lt hdescend).1] at hdescend
    cases hdescend
    rfl
  | cons b p ih =>
    rw [Arena.descend_cons] at hdescend
    obtain ⟨c, hc, hdescend⟩ := Option.bind_eq_some_iff.1 hdescend
    obtain ⟨n, hn, hc⟩ := Option.bind_eq_some_iff.1 hc
    obtain ⟨l', r', j', f', hc', hj'⟩ : Inner a c [] :=
      Inner.of_prefix ⟨l, r, j, f, hdescend, hj⟩ List.nil_prefix
    rw [Arena.descend_nil (Arena.descend_lt hdescend).1] at hc'
    cases hc'
    cases n with
    | leaf => cases hc
    | internal l0 r0 f0 =>
      have hc : (if b then r0 else l0) = some c := hc
      rw [List.cons_append, decodeWalk, hn]
      simp only [hc, hj']
      exact ih hdescend

/-- A path to a leaf emits its symbol, and the walk is at the root again (R157). -/
theorem decodeWalk_leaf {a : Arena} {root i : Nat} {p : List Bool} {y : Byte} (hp : p ≠ []) (rest : List Bool)
    (h : LeafAt a i p y) :
    decodeWalk a.nodes root i (p ++ rest) = (decodeWalk a.nodes root root rest).map (y :: ·) := by
  obtain ⟨q, b, rfl⟩ : ∃ q b, p = q ++ [b] := ⟨_, _, (List.dropLast_append_getLast hp).symm⟩
  obtain ⟨k, g, hdescend, hk⟩ := h
  rw [Arena.descend_append] at hdescend
  obtain ⟨j, hq, hdescend⟩ := Option.bind_eq_some_iff.1 hdescend
  rw [Arena.descend_cons] at hdescend
  obtain ⟨c, hc, hdescend⟩ := Option.bind_eq_some_iff.1 hdescend
  rw [Arena.descend_nil (Arena.descend_lt hdescend).1] at hdescend
  cases hdescend
  obtain ⟨n, hj, hc⟩ := Option.bind_eq_some_iff.1 hc
  cases n with
  | leaf => cases hc
  | internal l r f =>
    have hc : (if b then r else l) = some k := hc
    rw [List.append_assoc, List.singleton_append, decodeWalk_inner _ hq hj, decodeWalk, hj]
    simp only [hc, hk]
    rfl

/-- Words one after another emit their symbols (R157). -/
theorem decodeWalk_words {a : Arena} {root : Nat} {words : List (List Bool × Byte)}
    (hwords : ∀ w ∈ words, w.1 ≠ [] ∧ LeafAt a root w.1 w.2) (rest : List Bool) :
    decodeWalk a.nodes root root (words.flatMap Prod.fst ++ rest) =
      (decodeWalk a.nodes root root rest).map (words.map Prod.snd ++ ·) := by
  induction words with
  | nil =>
    rw [List.flatMap_nil, List.nil_append]
    cases decodeWalk a.nodes root root rest <;> rfl
  | cons w words ih =>
    obtain ⟨⟨hne, hleaf⟩, hrest⟩ := List.forall_mem_cons.1 hwords
    rw [List.flatMap_cons, List.append_assoc, decodeWalk_leaf hne _ hleaf, ih hrest]
    cases decodeWalk a.nodes root root rest <;> rfl

/-! ### The data bits -/

/-- A leaf does not stand where an internal node does. -/
theorem path_ne_of_leafAt_of_innerAt {a : Arena} {i : Nat} {p q : List Bool} {y : Byte} {l r : Option Nat}
    (h : LeafAt a i p y) (hq : InnerAt a i q l r) : p ≠ q := by
  rintro rfl
  obtain ⟨f, hleaf⟩ := leafAt_iff.1 h
  obtain ⟨g, hinner⟩ := innerAt_iff.1 hq
  rw [hleaf] at hinner
  cases hinner

theorem decodeBits_of_innerRoot {a : Arena} {root : Nat} {l r : Option Nat} (hroot : a.root = some root)
    (hinner : InnerAt a root [] l r) (bits : List Bool) :
    decodeBits a bits = decodeWalk a.nodes root root bits := by
  obtain ⟨j, f, hdescend, hj⟩ := hinner
  rw [Arena.descend_nil (Arena.descend_lt hdescend).1] at hdescend
  cases hdescend
  simp only [decodeBits, hroot, hj]

section InnerRoot

variable {a : Arena} {root : Nat} {l0 r0 : Option Nat} {words : List (List Bool × Byte)}
  (hroot : a.root = some root) (hinner : InnerAt a root [] l0 r0)
  (hwords : ∀ w ∈ words, LeafAt a root w.1 w.2)
include hroot hinner hwords

theorem decodeBits_words (rest : List Bool) :
    decodeBits a (words.flatMap Prod.fst ++ rest) =
      (decodeWalk a.nodes root root rest).map (words.map Prod.snd ++ ·) := by
  rw [decodeBits_of_innerRoot hroot hinner,
    decodeWalk_words fun w hw => ⟨path_ne_of_leafAt_of_innerAt (hwords w hw) hinner, hwords w hw⟩]

/-- Words and the start of one more (R157, R159). -/
theorem decodeBits_words_tail {tail : List Bool} (htail : Inner a root tail) :
    decodeBits a (words.flatMap Prod.fst ++ tail) = .ok (words.map Prod.snd) := by
  obtain ⟨l, r, j, f, hdescend, hj⟩ := htail
  have hwalk : decodeWalk a.nodes root root tail = .ok [] := by
    simpa [decodeWalk] using decodeWalk_inner (root := root) [] hdescend hj
  rw [decodeBits_words hroot hinner hwords, hwalk, Except.map, List.append_nil]

/-- Words and then a bit that selects no child (R160). -/
theorem decodeBits_badStream {p : List Bool} {b : Bool} {l r : Option Nat} (hp : InnerAt a root p l r)
    (hnone : (if b then r else l) = none) (rest : List Bool) :
    decodeBits a (words.flatMap Prod.fst ++ (p ++ b :: rest)) = .error (.raise (.fault .badStream)) := by
  obtain ⟨j, f, hdescend, hj⟩ := hp
  have hwalk : decodeWalk a.nodes root root (p ++ b :: rest) = .error (.raise (.fault .badStream)) := by
    rw [decodeWalk_inner _ hdescend hj, decodeWalk, hj]
    simp only [hnone]
  rw [decodeBits_words hroot hinner hwords, hwalk, Except.map]

end InnerRoot

/-- A LEAF root emits its symbol once per bit (R158). -/
theorem decodeBits_leafRoot {a : Arena} {root : Nat} {y : Byte} (hroot : a.root = some root)
    (hleaf : LeafAt a root [] y) (bits : List Bool) :
    decodeBits a bits = .ok (List.replicate bits.length y) := by
  obtain ⟨j, f, hdescend, hj⟩ := hleaf
  rw [Arena.descend_nil (Arena.descend_lt hdescend).1] at hdescend
  cases hdescend
  simp only [decodeBits, hroot, hj, List.map_const']

theorem decodeBits_noTree {a : Arena} (hroot : a.root = none) (bits : List Bool) :
    decodeBits a bits = if bits = [] then .ok [] else .error (.raise (.fault .badStream)) := by
  simp only [decodeBits, hroot]

namespace Machine

/-! ### The command -/

/-- What was decoded is appended when OUT_CAP allows it (R157). -/
theorem treeDecodeStage_of_decodeBits {s : State} {out : List Byte}
    (hout : decodeBits s.arena s.data.bits = .ok out) :
    treeDecodeStage s =
      if capAllows s.caps.outCap (s.outBuf.length + out.length) = true then .ok { s with outBuf := s.outBuf ++ out }
      else .error (.raise (.call .capacity)) := by
  rw [treeDecodeStage, hout, ok_bind]
  split_ifs with hcap
  · rw [hcap, ensure_true, ok_bind, memAppend]
  · rw [Bool.not_eq_true] at hcap
    rw [hcap, ensure_false, error_bind]

theorem exec_treeDecode {s : State} (hf : s.fault = false) {out : List Byte} {n : Nat}
    (hout : decodeBits s.arena s.data.bits = .ok out) (hn : out.length = n) :
    (capAllows s.caps.outCap (s.outBuf.length + n) = true →
      exec .treeDecode s = .next { s with outBuf := s.outBuf ++ out, status := .ok, response := [0x00] }) ∧
    (capAllows s.caps.outCap (s.outBuf.length + n) = false →
      exec .treeDecode s = .next (callErrorAfter s .capacity 0x05)) := by
  subst hn
  have hstage := treeDecodeStage_of_decodeBits hout
  constructor
  · intro hcap
    rw [if_pos hcap] at hstage
    exact exec_ok (i := .treeDecode) hf rfl (withoutResult_eq_ok.2 ⟨hstage, rfl⟩)
  · intro hcap
    rw [if_neg (by simp [hcap])] at hstage
    exact exec_callError (i := .treeDecode) hf rfl rfl (withoutResult_eq_raise.2 hstage)

theorem exec_treeDecode_badStream {s : State} (hf : s.fault = false)
    (hout : decodeBits s.arena s.data.bits = .error (.raise (.fault .badStream))) :
    exec .treeDecode s = .next (faultAfter s .badStream 0x15) := by
  have hstage : treeDecodeStage s = .error (.raise (.fault .badStream)) := by
    rw [treeDecodeStage, hout, error_bind]
  exact exec_fault (i := .treeDecode) hf rfl rfl (withoutResult_eq_raise.2 hstage)

end Machine

/-- Settles O44: an internal root, a LEAF root, no tree; then OUT_CAP decides. -/
theorem treeDecodeEmitsTheSymbols : Obligations.TreeDecodeEmitsTheSymbols := by
  unfold Obligations.TreeDecodeEmitsTheSymbols
  intro s hf
  refine ⟨fun root l r words tail hroot hinner hwords htail hbits => ?_, fun root y hroot hleaf => ?_,
    fun hroot hsize => ?_⟩
  · have hout := decodeBits_words_tail hroot hinner hwords htail
    exact exec_treeDecode hf (hbits ▸ hout) (List.length_map _)
  · have hout := decodeBits_leafRoot hroot hleaf s.data.bits
    rw [BitSeq.length_bits] at hout
    exact exec_treeDecode hf hout List.length_replicate
  · have hnil : s.data.bits = [] := List.length_eq_zero_iff.1 (s.data.length_bits.trans hsize)
    have hout := (decodeBits_noTree hroot s.data.bits).trans (if_pos hnil)
    simpa using exec_treeDecode hf hout rfl

/-- Settles O45: the walk raises before anything is appended. -/
theorem treeDecodeOffTheTreeLatches : Obligations.TreeDecodeOffTheTreeLatches := by
  unfold Obligations.TreeDecodeOffTheTreeLatches
  intro s hf
  refine ⟨fun root words p rest b l r hroot ⟨l0, r0, hinner⟩ hwords hp hnone hbits => ?_, fun hroot hsize => ?_⟩
  · exact exec_treeDecode_badStream hf (hbits ▸ decodeBits_badStream hroot hinner hwords hp hnone rest)
  · have hne : s.data.bits ≠ [] := List.ne_nil_of_length_pos (s.data.length_bits.symm ▸ hsize)
    exact exec_treeDecode_badStream hf ((decodeBits_noTree hroot _).trans (if_neg hne))

end Sys2Proof
end

section
/-! SUPPORT. TABLE.DERIVE (spec/41_codetree.md R150, R151): the walk writes the leaves below the root into the table,
from left to right, each with its path. O37 and O38 follow. -/

namespace Sys2Proof

open Machine Claims

/-! ### Entries written one after another -/

/-- The table with a list of entries written into it, a symbol and the bits of its code each (R150, R188). -/
def Machine.State.setCodes (s : State) (l : List (Byte × List Bool)) : State :=
  l.foldl (fun s e => s.setCode e.1 (.ofBits e.2)) s

section SetCodes

variable (s : State) (l : List (Byte × List Bool))

theorem Machine.State.setCodes_append (l' : List (Byte × List Bool)) :
    s.setCodes (l ++ l') = (s.setCodes l).setCodes l' := List.foldl_append

theorem Machine.State.setCodes_cons (e : Byte × List Bool) :
    s.setCodes (e :: l) = (s.setCode e.1 (.ofBits e.2)).setCodes l := rfl

theorem Machine.State.setCodes_frame :
    s.setCodes l = { s with code := (s.setCodes l).code, codeValid := (s.setCodes l).codeValid } := by
  induction l generalizing s with
  | nil => rfl
  | cons e l ih =>
    rw [State.setCodes_cons, ih]
    rfl

theorem Machine.State.setCodes_path : (s.setCodes l).path = s.path := by
  rw [State.setCodes_frame]

theorem Machine.State.setCodes_caps : (s.setCodes l).caps = s.caps := by
  rw [State.setCodes_frame]

/-- PATH is no part of the table. -/
theorem Machine.State.setCodes_withPath (p : BitSeq) :
    ({ s with path := p } : State).setCodes l = { s.setCodes l with path := p } := by
  induction l generalizing s with
  | nil => rfl
  | cons e l ih => exact ih (s.setCode e.1 (.ofBits e.2))

theorem Machine.State.validOf_setCodes (y : Byte) :
    (s.setCodes l).validOf y = true ↔ s.validOf y = true ∨ y ∈ l.map Prod.fst := by
  induction l generalizing s with
  | nil => simp [State.setCodes]
  | cons e l ih =>
    rw [State.setCodes_cons, ih, List.map_cons, List.mem_cons]
    by_cases hy : y = e.1
    · simp [hy]
    · simp [hy, State.validOf_setCode_ne]

variable {s l} in
theorem Machine.State.codeOf_setCodes_of_not_mem {y : Byte} (h : y ∉ l.map Prod.fst) :
    (s.setCodes l).codeOf y = s.codeOf y := by
  induction l generalizing s with
  | nil => rfl
  | cons e l ih =>
    rw [List.map_cons, List.mem_cons, not_or] at h
    rw [State.setCodes_cons, ih h.2, State.codeOf_setCode_ne _ _ _ _ h.1]

/-- Of the entries of a symbol the last one stays. -/
theorem Machine.State.codeOf_setCodes_last (l' : List (Byte × List Bool)) (y : Byte) (p : List Bool)
    (h : y ∉ l'.map Prod.fst) : (s.setCodes (l ++ (y, p) :: l')).codeOf y = .ofBits p := by
  rw [State.setCodes_append, State.setCodes_cons, State.codeOf_setCodes_of_not_mem h, State.codeOf_setCode_same]

end SetCodes

/-- A key of a list of entries has a last one. -/
theorem exists_last_entry {l : List (Byte × List Bool)} {y : Byte} (h : y ∈ l.map Prod.fst) :
    ∃ l₁ p l₂, l = l₁ ++ (y, p) :: l₂ ∧ y ∉ l₂.map Prod.fst := by
  induction l with
  | nil => cases h
  | cons e l ih =>
    by_cases hl : y ∈ l.map Prod.fst
    · obtain ⟨l₁, p, l₂, rfl, hy⟩ := ih hl
      exact ⟨e :: l₁, p, l₂, rfl, hy⟩
    · have he : y = e.1 := (List.mem_cons.1 h).resolve_right hl
      exact ⟨[], e.2, l, by rw [he]; rfl, hl⟩

/-! ### Leaves -/

theorem leafAt_nil {a : Arena} {i : Nat} {y : Byte} : LeafAt a i [] y ↔ ∃ f, a.nodes[i]? = some (.leaf y f) := by
  rw [leafAt_iff]
  refine exists_congr fun f => ⟨fun h => ?_, fun h => ?_⟩
  · obtain ⟨j, hj, hn⟩ := Option.bind_eq_some_iff.1 h
    rw [Arena.descend_nil (Arena.descend_lt hj).1] at hj
    cases hj
    exact hn
  · rw [Arena.nodeAt, Arena.descend_nil (List.getElem?_eq_some_iff.1 h).1]
    exact h

theorem leafAt_cons {a : Arena} {i : Nat} {b : Bool} {p : List Bool} {y : Byte} :
    LeafAt a i (b :: p) y ↔ ∃ c, childOf a.nodes i b = some c ∧ LeafAt a c p y := by
  simp only [LeafAt, Arena.descend_cons, Option.bind_eq_some_iff]
  constructor
  · rintro ⟨j, f, ⟨c, hc, hj⟩, hleaf⟩
    exact ⟨c, hc, j, f, hj, hleaf⟩
  · rintro ⟨c, hc, j, f, hj, hleaf⟩
    exact ⟨j, f, ⟨c, hc, hj⟩, hleaf⟩

/-- The leaves below a child, if there is one. -/
def sideLeaves (below : Nat → List Bool → List (Byte × List Bool)) (p : List Bool) (b : Bool) :
    Option Nat → List (Byte × List Bool)
  | none => []
  | some c => below c (p ++ [b])

/-- The leaves below node `i`, which stands at the end of path `p`, from left to right, each with its path; no
deeper than the fuel (R150). -/
def leavesBelow (nodes : List Node) : Nat → Nat → List Bool → List (Byte × List Bool)
  | 0, _, _ => []
  | fuel + 1, i, p =>
    match nodes[i]? with
    | none => []
    | some (.leaf y _) => [(y, p)]
    | some (.internal l r _) =>
      sideLeaves (leavesBelow nodes fuel) p false l ++ sideLeaves (leavesBelow nodes fuel) p true r

theorem leavesBelow_leaf {nodes : List Node} {i f : Nat} {y : Byte} (h : nodes[i]? = some (.leaf y f))
    (fuel : Nat) (p : List Bool) : leavesBelow nodes (fuel + 1) i p = [(y, p)] := by
  rw [leavesBelow, h]

theorem leavesBelow_internal {nodes : List Node} {i f : Nat} {l r : Option Nat}
    (h : nodes[i]? = some (.internal l r f)) (fuel : Nat) (p : List Bool) :
    leavesBelow nodes (fuel + 1) i p =
      sideLeaves (leavesBelow nodes fuel) p false l ++ sideLeaves (leavesBelow nodes fuel) p true r := by
  rw [leavesBelow, h]

theorem mem_sideLeaves {below : Nat → List Bool → List (Byte × List Bool)} {p : List Bool} {b : Bool}
    {c : Option Nat} {e : Byte × List Bool} :
    e ∈ sideLeaves below p b c ↔ ∃ k, c = some k ∧ e ∈ below k (p ++ [b]) := by
  cases c <;> simp [sideLeaves]

theorem mem_leavesBelow {a : Arena} {fuel i : Nat} {p q : List Bool} {y : Byte} :
    (y, q) ∈ leavesBelow a.nodes fuel i p ↔ ∃ q', q = p ++ q' ∧ q'.length < fuel ∧ LeafAt a i q' y := by
  induction fuel generalizing i p with
  | zero => simp [leavesBelow]
  | succ fuel ih =>
    cases hi : a.nodes[i]? with
    | none =>
      rw [leavesBelow, hi]
      refine ⟨nofun, fun ⟨q', _, _, hleaf⟩ => ?_⟩
      cases q' with
      | nil => simp [leafAt_nil, hi] at hleaf
      | cons b q' => simp [leafAt_cons, childOf, hi] at hleaf
    | some n =>
      cases n with
      | leaf z f =>
        rw [leavesBelow_leaf hi, List.mem_singleton, Prod.mk.injEq]
        constructor
        · rintro ⟨rfl, rfl⟩
          exact ⟨[], (List.append_nil q).symm, Nat.succ_pos _, leafAt_nil.2 ⟨f, hi⟩⟩
        · rintro ⟨q', rfl, -, hleaf⟩
          cases q' with
          | nil => simpa [leafAt_nil, hi, eq_comm] using hleaf
          | cons b q' => simp [leafAt_cons, childOf, hi, Node.child] at hleaf
      | internal l r f =>
        have hchild : ∀ b, childOf a.nodes i b = if b then r else l := fun b => by simp [childOf, hi, Node.child]
        rw [leavesBelow_internal hi, List.mem_append, mem_sideLeaves, mem_sideLeaves]
        simp only [ih]
        constructor
        · rintro (⟨c, hc, q', rfl, hlen, hleaf⟩ | ⟨c, hc, q', rfl, hlen, hleaf⟩)
          · exact ⟨false :: q', by simp, Nat.succ_lt_succ hlen, leafAt_cons.2 ⟨c, (hchild false).trans hc, hleaf⟩⟩
          · exact ⟨true :: q', by simp, Nat.succ_lt_succ hlen, leafAt_cons.2 ⟨c, (hchild true).trans hc, hleaf⟩⟩
        · rintro ⟨q', rfl, hlen, hleaf⟩
          cases q' with
          | nil => simp [leafAt_nil, hi] at hleaf
          | cons b q' =>
            obtain ⟨c, hc, hleaf⟩ := leafAt_cons.1 hleaf
            rw [hchild] at hc
            have hrest : ∃ q'', p ++ b :: q' = p ++ [b] ++ q'' ∧ q''.length < fuel ∧ LeafAt a c q'' y :=
              ⟨q', by simp, Nat.lt_of_succ_lt_succ hlen, hleaf⟩
            cases b
            · exact .inl ⟨c, hc, hrest⟩
            · exact .inr ⟨c, hc, hrest⟩

/-- Path `p` leaves path `p'` to the left (R150). -/
def LeftOf (p p' : List Bool) : Prop := ∃ c a b, p = c ++ false :: a ∧ p' = c ++ true :: b

/-- The walk goes from left to right. -/
theorem leavesBelow_pairwise (a : Arena) (fuel i : Nat) (p : List Bool) :
    (leavesBelow a.nodes fuel i p).Pairwise fun e e' => LeftOf e.2 e'.2 := by
  induction fuel generalizing i p with
  | zero => exact .nil
  | succ fuel ih =>
    cases hi : a.nodes[i]? with
    | none =>
      rw [leavesBelow, hi]
      exact .nil
    | some n =>
      cases n with
      | leaf z f =>
        rw [leavesBelow_leaf hi]
        exact List.pairwise_singleton _ _
      | internal l r f =>
        have hside : ∀ b c, (sideLeaves (leavesBelow a.nodes fuel) p b c).Pairwise fun e e' => LeftOf e.2 e'.2 :=
          fun b c => by
            cases c with
            | none => exact .nil
            | some c => exact ih c _
        rw [leavesBelow_internal hi]
        refine List.pairwise_append.2 ⟨hside false l, hside true r, fun e he e' he' => ?_⟩
        obtain ⟨c, -, he⟩ := mem_sideLeaves.1 he
        obtain ⟨c', -, he'⟩ := mem_sideLeaves.1 he'
        obtain ⟨q, hq, -⟩ := mem_leavesBelow.1 he
        obtain ⟨q', hq', -⟩ := mem_leavesBelow.1 he'
        exact ⟨p, q, q', by simp [hq], by simp [hq']⟩

/-! ### The walk -/

/-- A path from the root meets every node once at most, so it is shorter than the arena (R33). -/
theorem Arena.Wf.length_lt {a : Arena} (h : a.Wf) {root j : Nat} (hroot : a.root = some root) {p : List Bool}
    (hp : a.descend root p = some j) : p.length < a.nodes.length := by
  by_contra hge
  have hstep : ∀ k, ∃ i, a.descend root (p.take k) = some i := fun k => by
    rw [← List.take_append_drop k p, Arena.descend_append] at hp
    obtain ⟨i, hi, -⟩ := Option.bind_eq_some_iff.1 hp
    exact ⟨i, hi⟩
  choose node hnode using hstep
  obtain ⟨k, hk, k', hk', hne, heq⟩ := Finset.exists_ne_map_eq_of_card_lt_of_maps_to
    (s := Finset.range (p.length + 1)) (t := Finset.range a.nodes.length) (f := node)
    (by simpa using hge) fun k _ => Finset.mem_range.2 (Arena.descend_lt (hnode k)).2
  have htake := congrArg List.length (h.descend_inj hroot (hnode k) (heq ▸ hnode k'))
  rw [List.length_take, List.length_take] at htake
  have := Finset.mem_range.1 hk
  have := Finset.mem_range.1 hk'
  omega

/-- BS_CAP allows the paths below node `i`, which stands `n` bits below the root (R112, R150). -/
def PathsFit (a : Arena) (caps : Capacities) (i n : Nat) : Prop :=
  ∀ q j, a.descend i q = some j → capAllows caps.bsCap (n + q.length) = true

theorem pathsFit_leaf {a : Arena} {caps : Capacities} {i n f : Nat} {y : Byte} (hi : a.nodes[i]? = some (.leaf y f))
    (hcap : capAllows caps.bsCap n = true) : PathsFit a caps i n := by
  intro q j hj
  cases q with
  | nil => exact hcap
  | cons b q => simp [Arena.descend_cons, childOf, hi, Node.child] at hj

theorem pathsFit_internal {a : Arena} {caps : Capacities} {i n f : Nat} {l r : Option Nat}
    (hi : a.nodes[i]? = some (.internal l r f)) (hcap : capAllows caps.bsCap n = true) :
    PathsFit a caps i n ↔
      (∀ c, l = some c → PathsFit a caps c (n + 1)) ∧ ∀ c, r = some c → PathsFit a caps c (n + 1) := by
  have hchild : ∀ b, childOf a.nodes i b = (Node.internal l r f).child b := fun b => by simp [childOf, hi]
  have hdown : PathsFit a caps i n → ∀ b c, (Node.internal l r f).child b = some c → PathsFit a caps c (n + 1) := by
    intro h b c hc q j hj
    have := h (b :: q) j (by rw [Arena.descend_cons, hchild, hc]; exact hj)
    rwa [List.length_cons, ← Nat.add_assoc, Nat.add_right_comm] at this
  constructor
  · exact fun h => ⟨hdown h false, hdown h true⟩
  · rintro ⟨hl, hr⟩ q j hj
    cases q with
    | nil => exact hcap
    | cons b q =>
      rw [Arena.descend_cons, hchild] at hj
      obtain ⟨c, hc, hdown⟩ := Option.bind_eq_some_iff.1 hj
      rw [List.length_cons, Nat.add_comm q.length, ← Nat.add_assoc]
      cases b
      · exact hl c hc q j hdown
      · exact hr c hc q j hdown

/-- The walk's answer: the leaves written where every path fits BS_CAP, and E_CAPACITY otherwise. -/
def WalkAnswers (fits : Prop) (x : Res State) (t : State) : Prop :=
  (fits ∧ x = .ok t) ∨ (¬ fits ∧ x = .error (.raise (.call .capacity)))

theorem WalkAnswers.bind {p q : Prop} {x : Res State} {f : State → Res State} {t u : State} (h : WalkAnswers p x t)
    (h' : WalkAnswers q (f t) u) : WalkAnswers (p ∧ q) (x >>= f) u := by
  rcases h with ⟨hp, rfl⟩ | ⟨hp, rfl⟩
  · rw [ok_bind]
    exact h'.imp (fun h => ⟨⟨hp, h.1⟩, h.2⟩) fun h => ⟨fun hpq => h.1 hpq.2, h.2⟩
  · exact .inr ⟨fun hpq => hp hpq.1, error_bind _ _⟩

/-- One side of `walk(i)` (R150): PATH is as it was after the child's leaves are written. -/
theorem visitChild_answers {a : Arena} {walk : Nat → State → Res State}
    {below : Nat → List Bool → List (Byte × List Bool)} {s : State} {p : List Bool} {b : Bool} {c : Option Nat}
    (hpath : s.path = .ofBits p)
    (hwalk : ∀ k, c = some k → ∀ u : State, u.caps = s.caps → u.path = .ofBits (p ++ [b]) →
      capAllows u.caps.bsCap (p ++ [b]).length = true →
      WalkAnswers (PathsFit a u.caps k (p ++ [b]).length) (walk k u) (u.setCodes (below k (p ++ [b])))) 
    (hlt : ∀ k, c = some k → k < a.nodes.length) :
    WalkAnswers (∀ k, c = some k → PathsFit a s.caps k (p.length + 1)) (visitChild walk b c s)
      (s.setCodes (sideLeaves below p b c)) := by
  cases c with
  | none => exact .inl ⟨nofun, rfl⟩
  | some k =>
    have hpush : s.path.pushBit b = .ofBits (p ++ [b]) := by
      rw [hpath, (BitSeq.wf_ofBits p).pushBit_eq, BitSeq.bits_ofBits]
    have hpop : (BitSeq.ofBits (p ++ [b])).pop = s.path := by
      rw [(BitSeq.wf_ofBits _).pop_eq, BitSeq.bits_ofBits, List.dropLast_concat, hpath]
    have hsize : s.path.size = p.length := by rw [hpath, BitSeq.size_ofBits]
    simp only [Option.some.injEq, forall_eq', visitChild, pushBitCap, hsize, hpush]
    by_cases hcap : capAllows s.caps.bsCap (p.length + 1) = true
    · rw [if_pos hcap, ok_bind]
      have := hwalk k rfl { s with path := .ofBits (p ++ [b]) } rfl rfl (by simpa using hcap)
      rw [List.length_append, List.length_singleton] at this
      rcases this with ⟨hfits, hok⟩ | ⟨hnot, herr⟩
      · refine .inl ⟨hfits, ?_⟩
        rw [hok, ok_bind, State.setCodes_withPath, hpop, sideLeaves, ← State.setCodes_path s]
      · refine .inr ⟨hnot, ?_⟩
        rw [herr, error_bind]
    · refine .inr ⟨fun hfits => hcap (hfits [] k (Arena.descend_nil (hlt k rfl))), ?_⟩
      rw [if_neg hcap, error_bind]

/-- `walk(i)` (R150) at the end of path `p`, with fuel for every path below. -/
theorem deriveWalk_answers {a : Arena} (h : a.Wf) {root : Nat} (hroot : a.root = some root) (fuel : Nat)
    {i : Nat} {p : List Bool} (hp : a.descend root p = some i) (hfuel : a.nodes.length ≤ fuel + p.length) {s : State}
    (hpath : s.path = .ofBits p) (hcap : capAllows s.caps.bsCap p.length = true) :
    WalkAnswers (PathsFit a s.caps i p.length) (deriveWalk a.nodes fuel i s)
      (s.setCodes (leavesBelow a.nodes fuel i p)) := by
  induction fuel generalizing i p s with
  | zero => exact absurd (h.length_lt hroot hp) (by omega)
  | succ fuel ih =>
    have hi := List.getElem?_eq_getElem (Arena.descend_lt hp).2
    cases hn : a.nodes[i]'(Arena.descend_lt hp).2 with
    | leaf y f =>
      rw [hn] at hi
      refine .inl ⟨pathsFit_leaf hi hcap, ?_⟩
      rw [deriveWalk, hi, leavesBelow_leaf hi]
      simp only [hpath]
      rfl
    | internal l r f =>
      rw [hn] at hi
      have hside : ∀ (b : Bool) (c : Option Nat) (u : State), childOf a.nodes i b = c → u.caps = s.caps →
          u.path = s.path → WalkAnswers (∀ k, c = some k → PathsFit a s.caps k (p.length + 1))
            (visitChild (deriveWalk a.nodes fuel) b c u)
            (u.setCodes (sideLeaves (leavesBelow a.nodes fuel) p b c)) := by
        intro b c u hc hucaps hupath
        rw [← hucaps]
        refine visitChild_answers (hupath.trans hpath) (fun k hk v _ hvpath hvcap => ?_) fun k hk => ?_
        · refine ih ?_ (by simp; omega) hvpath hvcap
          rw [h.descend_concat, hp, Option.bind_some, hc, hk]
        · exact h.childOf_lt (hc.trans hk)
      have hleft := hside false l s (by simp [childOf, hi, Node.child]) rfl rfl
      have hright := hside true r (s.setCodes (sideLeaves (leavesBelow a.nodes fuel) p false l))
        (by simp [childOf, hi, Node.child]) (State.setCodes_caps _ _) (State.setCodes_path _ _)
      rw [deriveWalk, hi, leavesBelow_internal hi, State.setCodes_append, WalkAnswers, pathsFit_internal hi hcap]
      exact hleft.bind hright

/-! ### The stage -/

/-- The leaves below the root, from left to right, each with its path. -/
def Arena.leaves (a : Arena) : List (Byte × List Bool) :=
  match a.root with
  | none => []
  | some root => leavesBelow a.nodes a.nodes.length root []

theorem Arena.Wf.mem_leaves {a : Arena} (h : a.Wf) {y : Byte} {p : List Bool} :
    (y, p) ∈ a.leaves ↔ ∃ root, a.root = some root ∧ LeafAt a root p y := by
  rw [Arena.leaves]
  cases hroot : a.root with
  | none => simp
  | some root =>
    rw [mem_leavesBelow]
    constructor
    · rintro ⟨q, rfl, -, hleaf⟩
      exact ⟨root, rfl, hleaf⟩
    · rintro ⟨root', heq, hleaf⟩
      cases heq
      obtain ⟨j, f, hj, -⟩ := id hleaf
      exact ⟨p, rfl, h.length_lt hroot hj, hleaf⟩

theorem Arena.leaves_pairwise (a : Arena) : a.leaves.Pairwise fun e e' => LeftOf e.2 e'.2 := by
  rw [Arena.leaves]
  cases a.root with
  | none => exact .nil
  | some root => exact leavesBelow_pairwise a _ root []

/-- The state that TABLE.DERIVE leaves when it completes (R150). -/
def Machine.State.derived (s : State) : State := ({ s.clearTable with path := .empty } : State).setCodes s.arena.leaves

theorem Machine.tableDeriveStage_answers {s : State} (h : s.arena.Wf) :
    WalkAnswers (DepthFits s) (tableDeriveStage s) s.derived := by
  have hstage : tableDeriveStage s = match s.arena.root with
      | none => .ok { s.clearTable with path := .empty }
      | some root => deriveWalk s.arena.nodes s.arena.nodes.length root { s.clearTable with path := .empty } := rfl
  rw [hstage, State.derived, Arena.leaves]
  cases hroot : s.arena.root with
  | none => exact .inl ⟨fun root _ _ hr => absurd (hroot.symm.trans hr) nofun, rfl⟩
  | some root =>
    have hfits : PathsFit s.arena s.caps root 0 ↔ DepthFits s := by
      simp only [PathsFit, Nat.zero_add, DepthFits]
      constructor
      · intro hfits root' j p hroot' hp
        cases hroot.symm.trans hroot'
        exact hfits p j hp
      · exact fun hfits p j hp => hfits root j p hroot hp
    rw [← hfits]
    have hempty : BitSeq.empty = .ofBits [] := by decide
    exact deriveWalk_answers h hroot s.arena.nodes.length (Arena.descend_nil (h.root_spec hroot).1)
      (Nat.le_add_right _ _) (s := { s.clearTable with path := .empty }) hempty (capAllows_zero _)

/-- The keys of the derived table (R150). -/
theorem Machine.State.validOf_derived {s : State} (h : s.arena.Wf) (y : Byte) :
    s.derived.validOf y = true ↔ ∃ root p, s.arena.root = some root ∧ LeafAt s.arena root p y := by
  have hbase : ({ s.clearTable with path := .empty } : State).validOf y = false := State.validOf_clearTable s y
  rw [State.derived, State.validOf_setCodes, hbase]
  constructor
  · rintro (hfalse | hmem)
    · cases hfalse
    · obtain ⟨⟨z, p⟩, hz, rfl⟩ := List.mem_map.1 hmem
      obtain ⟨root, hroot, hleaf⟩ := h.mem_leaves.1 hz
      exact ⟨root, p, hroot, hleaf⟩
  · rintro ⟨root, p, hroot, hleaf⟩
    exact .inr (List.mem_map_of_mem (f := Prod.fst) (h.mem_leaves.2 ⟨root, hroot, hleaf⟩))

/-- The code of a key is the path to its last leaf (R150). -/
theorem Machine.State.codeOf_derived {s : State} (h : s.arena.Wf) {y : Byte} (hy : s.derived.validOf y = true) :
    ∃ root p, s.arena.root = some root ∧ LeafAt s.arena root p y ∧ s.derived.codeOf y = .ofBits p ∧
      ∀ p', LeafAt s.arena root p' y → p' = p ∨ LeftOf p' p := by
  obtain ⟨root, p', hroot, hleaf⟩ := (State.validOf_derived h y).1 hy
  have hmem := h.mem_leaves.2 ⟨root, hroot, hleaf⟩
  obtain ⟨l₁, p, l₂, hsplit, hlast⟩ := exists_last_entry (List.mem_map_of_mem (f := Prod.fst) hmem)
  have hp : (y, p) ∈ s.arena.leaves := by simp [hsplit]
  obtain ⟨root', hroot', hleaf'⟩ := h.mem_leaves.1 hp
  cases hroot.symm.trans hroot'
  refine ⟨root, p, hroot, hleaf', ?_, fun q hq => ?_⟩
  · rw [State.derived, hsplit, State.codeOf_setCodes_last _ _ _ _ _ hlast]
  · have hq := h.mem_leaves.2 ⟨root, hroot, hq⟩
    have hpair := s.arena.leaves_pairwise
    rw [hsplit] at hq hpair
    rcases List.mem_append.1 hq with hq | hq
    · exact .inr ((List.pairwise_append.1 hpair).2.2 _ hq _ List.mem_cons_self)
    · rcases List.mem_cons.1 hq with hq | hq
      · exact .inl (congrArg Prod.snd hq)
      · exact absurd (List.mem_map_of_mem (f := Prod.fst) hq) hlast

theorem Machine.State.codeOf_derived_of_invalid {s : State} {y : Byte} (hy : s.derived.validOf y = false) :
    s.derived.codeOf y = .empty := by
  have hnot : y ∉ s.arena.leaves.map Prod.fst := fun hmem => by
    rw [State.derived, ← Bool.not_eq_true, State.validOf_setCodes] at hy
    exact hy (.inr hmem)
  rw [State.derived, State.codeOf_setCodes_of_not_mem hnot]
  exact State.codeOf_clearTable s y

/-- Settles O37: the walk's answer, and the last leaf of each symbol. -/
theorem tableDeriveListsTheLeaves : Obligations.TableDeriveListsTheLeaves := by
  unfold Obligations.TableDeriveListsTheLeaves
  intro s hinv hf
  obtain ⟨-, -, -, -, -, harena, -⟩ := hinv
  rcases tableDeriveStage_answers harena with ⟨hfits, hstage⟩ | ⟨hnot, hstage⟩
  · refine ⟨fun _ => ⟨_, exec_stage_ok (i := .tableDerive) rfl hf rfl hstage, ?_, fun y =>
      ⟨State.validOf_derived harena y, State.codeOf_derived harena, State.codeOf_derived_of_invalid⟩⟩,
      fun hnot => absurd hfits hnot⟩
    rw [State.derived, State.setCodes_frame]
    rfl
  · refine ⟨fun hfits => absurd hfits hnot,
      fun _ => ⟨_, exec_stage_raise (i := .tableDerive) rfl hf rfl hstage, State.raise_call_status _ _, ?_⟩⟩
    simp only [Instr.unspecified, State.afterTableDerive, State.raise_call_fault, State.drawn_fault,
      State.drawPath_fault, State.drawTable_fault, hf]

/-- Two leaves below the root on one path are the same leaf. -/
theorem leafAt_prefix_unique {a : Arena} {i : Nat} {p q : List Bool} {y z : Byte} (hp : LeafAt a i p y)
    (hq : LeafAt a i q z) (hpre : p <+: q) : y = z := by
  obtain ⟨q, rfl⟩ := hpre
  cases q with
  | nil =>
    rw [List.append_nil, leafAt_iff] at hq
    obtain ⟨f, hp⟩ := leafAt_iff.1 hp
    obtain ⟨g, hq⟩ := hq
    rw [hp] at hq
    cases hq
    rfl
  | cons b q =>
    obtain ⟨j, f, hj, -⟩ := hq
    obtain ⟨l, r, hinner⟩ := inner_of_descend_append (p := p) (List.cons_ne_nil b q) (by rw [hj]; nofun)
    exact absurd rfl (path_ne_of_leafAt_of_innerAt hp hinner)

/-- The codes of a derived table are paths to leaves, so none begins another (R151). -/
theorem Machine.State.prefixFree_derived {s : State} (h : s.arena.Wf) : PrefixFree s.derived := by
  intro y z hy hz hne hpre
  obtain ⟨root, p, hroot, hp, hcode, -⟩ := State.codeOf_derived h hy
  obtain ⟨root', q, hroot', hq, hcode', -⟩ := State.codeOf_derived h hz
  cases hroot.symm.trans hroot'
  rw [hcode, hcode', BitSeq.bits_ofBits, BitSeq.bits_ofBits] at hpre
  exact hne (leafAt_prefix_unique hp hq hpre)

/-- Settles O38: of a command that ended OK the stage reached its end. -/
theorem derivedTableIsPrefixFree : Obligations.DerivedTableIsPrefixFree := by
  unfold Obligations.DerivedTableIsPrefixFree
  intro s t hinv hexec hok
  obtain ⟨-, -, -, -, -, harena, -⟩ := hinv
  obtain ⟨-, rfl⟩ | ⟨-, -, rfl⟩ | ⟨-, -, u, l, hrule, rfl⟩ | ⟨-, -, r, -, rfl⟩ := exec_cases hexec
  · cases hok
  · cases hok
  · obtain ⟨hstage, -⟩ := withoutResult_eq_ok.1 hrule
    rcases tableDeriveStage_answers harena with ⟨-, hstage'⟩ | ⟨-, hstage'⟩
    · cases hstage.symm.trans hstage'
      exact State.prefixFree_derived harena
    · cases hstage.symm.trans hstage'
  · cases r <;> cases hok

end Sys2Proof
end

section
/-! SUPPORT. TREE.BUILD (spec/41_codetree.md R142 to R148): what the two loops keep of the order of the sorter, and the
tree they end with. O34, O35 and O36 follow. -/

namespace Sys2Proof

open Machine Claims

/-! ### The order of the sorter -/

theorem SortEntry.Before.trans {x y z : SortEntry} (h : x.Before y) (h' : y.Before z) : x.Before z := by
  unfold SortEntry.Before at *
  omega

/-- The sorter stays ascending when the newest entry is put at its place (R29, R143). -/
theorem insertEntry_sorted {e : SortEntry} {l : List SortEntry} (h : l.Pairwise SortEntry.Before)
    (hseq : ∀ x ∈ l, x.seq < e.seq) : (insertEntry e l).Pairwise SortEntry.Before := by
  induction l with
  | nil => exact List.pairwise_singleton _ _
  | cons x rest ih =>
    obtain ⟨hx, hrest⟩ := List.pairwise_cons.1 h
    obtain ⟨hxe, hseq⟩ := List.forall_mem_cons.1 hseq
    rw [insertEntry]
    split_ifs with hbefore
    · refine List.pairwise_cons.2 ⟨fun z hz => ?_, h⟩
      rcases List.mem_cons.1 hz with rfl | hz
      · exact hbefore
      · exact hbefore.trans (hx z hz)
    · refine List.pairwise_cons.2 ⟨fun z hz => ?_, ih hrest hseq⟩
      rcases List.mem_cons.1 ((insertEntry_perm e rest).mem_iff.1 hz) with rfl | hz
      · unfold SortEntry.Before at hbefore ⊢
        omega
      · exact hx z hz

/-! ### Nodes appended -/

/-- The nodes below an index are as they were when a node is appended. -/
theorem getElem?_concat_of_lt {nodes : List Node} (n : Node) {i : Nat} (hi : i < nodes.length) :
    (nodes ++ [n])[i]? = nodes[i]? := List.getElem?_append_left hi

theorem nfreq_concat_of_lt {nodes : List Node} (n : Node) {i : Nat} (hi : i < nodes.length) :
    nfreq ⟨nodes ++ [n], none⟩ i = nfreq ⟨nodes, none⟩ i := by
  simp only [nfreq, getElem?_concat_of_lt n hi]

/-- What R144 to R146 say of node `j` with children `l` and `r`: of the nodes before it that were not merged before,
they are the two least, `l` before `r`. -/
def MergesLeast (nodes : List Node) (j l r f : Nat) : Prop :=
  l < j ∧ r < j ∧ sortedBefore ⟨nodes, none⟩ l r ∧ f = nfreq ⟨nodes, none⟩ l + nfreq ⟨nodes, none⟩ r ∧
    (∀ (i : Nat) (n : Node), i < j → nodes[i]? = some n → l ∉ n.children ∧ r ∉ n.children) ∧
    ∀ m, m < j → (∀ (i : Nat) (n : Node), i < j → nodes[i]? = some n → m ∉ n.children) →
      m = l ∨ m = r ∨ sortedBefore ⟨nodes, none⟩ r m

/-- A later node changes nothing of that. -/
theorem MergesLeast.concat {nodes : List Node} {j l r f : Nat} (h : MergesLeast nodes j l r f)
    (hj : j < nodes.length) (n : Node) : MergesLeast (nodes ++ [n]) j l r f := by
  have hnode : ∀ i, i < j → (nodes ++ [n])[i]? = nodes[i]? := fun i hi => getElem?_concat_of_lt n (hi.trans hj)
  have hfreq : ∀ i, i < j → nfreq ⟨nodes ++ [n], none⟩ i = nfreq ⟨nodes, none⟩ i := fun i hi =>
    nfreq_concat_of_lt n (hi.trans hj)
  obtain ⟨hl, hr, hlr, hf, hfresh, hleast⟩ := h
  refine ⟨hl, hr, ?_, ?_, fun i m hi hm => hfresh i m hi (hnode i hi ▸ hm), fun m hm hno => ?_⟩
  · rwa [sortedBefore, hfreq l hl, hfreq r hr]
  · rwa [hfreq l hl, hfreq r hr]
  · rw [sortedBefore, hfreq r hr, hfreq m hm]
    exact hleast m hm fun i k hi hk => hno i k hi ((hnode i hi).trans hk)

/-! ### What both loops keep -/

/-- What both loops of R146 keep: every node is in the sorter or under a parent, the sorter is ascending and shows
each node's NFREQ and its index, every merge took the two least, and the frequencies in the sorter add up. -/
structure Builder.Ordered (b : Builder) (total : Nat) : Prop where
  placed : b.placed.Perm (List.range b.nodes.length)
  seq_eq : b.seq = b.nodes.length
  entry : ∀ e ∈ b.sort, e.seq = e.node ∧ e.freq = nfreq ⟨b.nodes, none⟩ e.node
  sorted : b.sort.Pairwise SortEntry.Before
  merges : ∀ j l r f, b.nodes[j]? = some (.internal (some l) (some r) f) → MergesLeast b.nodes j l r f
  total_eq : (b.sort.map SortEntry.freq).sum = total

section Ordered

variable {b : Builder} {total : Nat} (h : b.Ordered total)
include h

theorem Builder.Ordered.nodup : b.placed.Nodup := h.placed.nodup_iff.2 List.nodup_range

theorem Builder.Ordered.mem_placed {c : Nat} : c ∈ b.placed ↔ c < b.nodes.length :=
  h.placed.mem_iff.trans List.mem_range

theorem Builder.Ordered.entry_lt {e : SortEntry} (he : e ∈ b.sort) : e.node < b.nodes.length :=
  h.mem_placed.1 (List.mem_append_left _ (List.mem_map_of_mem he))

/-- A node in the sorter has no parent yet. -/
theorem Builder.Ordered.not_child {e : SortEntry} (he : e ∈ b.sort) {i : Nat} {n : Node} (hn : b.nodes[i]? = some n) :
    e.node ∉ n.children := fun hc => by
  have hmem : e.node ∈ b.nodes.flatMap Node.children := List.mem_flatMap.2 ⟨n, List.mem_of_getElem? hn, hc⟩
  exact (List.nodup_append'.1 h.nodup).2.2 (List.mem_map_of_mem he) hmem

/-- A node without a parent is in the sorter. -/
theorem Builder.Ordered.exists_entry {m : Nat} (hm : m < b.nodes.length)
    (hno : ∀ (i : Nat) (n : Node), i < b.nodes.length → b.nodes[i]? = some n → m ∉ n.children) :
    ∃ e ∈ b.sort, e.node = m := by
  rcases List.mem_append.1 (h.mem_placed.2 hm) with hs | hc
  · exact List.mem_map.1 hs
  · obtain ⟨n, hn, hc⟩ := List.mem_flatMap.1 hc
    obtain ⟨i, hi, rfl⟩ := List.getElem_of_mem hn
    exact absurd hc (hno i _ hi (List.getElem?_eq_getElem hi))

/-- The order of the sorter is that of its nodes (R29). -/
theorem Builder.Ordered.sortedBefore {x y : SortEntry} (hx : x ∈ b.sort) (hy : y ∈ b.sort) (hxy : x.Before y) :
    Claims.sortedBefore ⟨b.nodes, none⟩ x.node y.node := by
  obtain ⟨hxs, hxf⟩ := h.entry x hx
  obtain ⟨hys, hyf⟩ := h.entry y hy
  rw [Claims.sortedBefore, ← hxf, ← hyf, ← hxs, ← hys]
  exact hxy

/-- One allocation (R34, R143): the new node takes its children out of the sorter and its own place there. -/
theorem Builder.Ordered.add {rest : List SortEntry} {n : Node} {freq total' : Nat}
    (hperm : (b.sort.map SortEntry.node).Perm (n.children ++ rest.map SortEntry.node)) (hsub : rest.Sublist b.sort)
    (hfreq : nfreq ⟨b.nodes ++ [n], none⟩ b.nodes.length = freq)
    (hmerge : ∀ l r f, n = .internal (some l) (some r) f → MergesLeast (b.nodes ++ [n]) b.nodes.length l r f)
    (htotal : (rest.map SortEntry.freq).sum + freq = total') :
    (({ b with sort := rest }).add n freq).Ordered total' := by
  have hsort := insertEntry_perm ⟨freq, b.seq, b.nodes.length⟩ rest
  refine ⟨?_, ?_, fun e he => ?_, ?_, fun j l r f hj => ?_, ?_⟩
  · simp only [Builder.placed, Builder.add, List.flatMap_append, List.flatMap_singleton, List.length_append,
      List.length_singleton, List.range_succ]
    refine ((hsort.map SortEntry.node).append_right _).trans ?_
    rw [List.map_cons, List.cons_append]
    refine (List.Perm.cons _ ?_).trans (List.perm_append_singleton _ _).symm
    refine .trans ?_ ((hperm.append_right _).symm.trans h.placed)
    rw [← List.append_assoc, List.append_assoc n.children]
    exact List.perm_append_comm
  · simp [Builder.add, h.seq_eq]
  · rcases List.mem_cons.1 (hsort.mem_iff.1 he) with rfl | he
    · exact ⟨h.seq_eq, hfreq.symm⟩
    · have he := hsub.subset he
      rw [Builder.add, nfreq_concat_of_lt n (h.entry_lt he)]
      exact h.entry e he
  · refine insertEntry_sorted (h.sorted.sublist hsub) fun x hx => ?_
    have hx := hsub.subset hx
    rw [(h.entry x hx).1]
    exact (h.entry_lt hx).trans_eq h.seq_eq.symm
  · rw [Builder.add] at hj ⊢
    rcases Nat.lt_or_ge j b.nodes.length with hlt | hge
    · rw [getElem?_concat_of_lt n hlt] at hj
      exact (h.merges j l r f hj).concat hlt n
    · have hlen : j < b.nodes.length + 1 := by simpa using (List.getElem?_eq_some_iff.1 hj).1
      obtain rfl : j = b.nodes.length := by omega
      rw [List.getElem?_concat_length] at hj
      exact hmerge l r f (Option.some.inj hj)
  · rw [Builder.add, (hsort.map SortEntry.freq).sum_eq, List.map_cons, List.sum_cons, Nat.add_comm]
    exact htotal

/-- The first loop: a symbol of positive frequency gets a leaf. -/
theorem Builder.Ordered.addLeaf (x : Nat × Nat) : (b.addLeaf x).Ordered (total + x.1) := by
  unfold Builder.addLeaf
  split_ifs with hx
  · refine h.add (rest := b.sort) (.refl _) (.refl _) ?_ nofun ?_
    · simp [nfreq]
    · rw [h.total_eq]
  · rw [Nat.eq_zero_of_not_pos hx]
    exact h

theorem Builder.Ordered.addLeaves (l : List (Nat × Nat)) :
    (l.foldl Builder.addLeaf b).Ordered (total + (l.map Prod.fst).sum) := by
  induction l generalizing b total with
  | nil => exact h
  | cons x l ih =>
    rw [List.foldl_cons, List.map_cons, List.sum_cons, ← Nat.add_assoc]
    exact ih (h.addLeaf x)

/-- The two least entries of the sorter (R144). -/
theorem Builder.Ordered.mergesLeast {x y : SortEntry} {rest : List SortEntry} (hsort : b.sort = x :: y :: rest)
    (n : Node) : MergesLeast (b.nodes ++ [n]) b.nodes.length x.node y.node (x.freq + y.freq) := by
  have hx : x ∈ b.sort := by simp [hsort]
  have hy : y ∈ b.sort := by simp [hsort]
  obtain ⟨hxall, hyrest⟩ := List.pairwise_cons.1 (hsort ▸ h.sorted)
  obtain ⟨hyall, -⟩ := List.pairwise_cons.1 hyrest
  have hfreq : ∀ e ∈ b.sort, nfreq ⟨b.nodes ++ [n], none⟩ e.node = nfreq ⟨b.nodes, none⟩ e.node := fun e he =>
    nfreq_concat_of_lt n (h.entry_lt he)
  refine ⟨h.entry_lt hx, h.entry_lt hy, ?_, ?_, fun i m hi hm => ?_, fun m hm hno => ?_⟩
  · rw [Claims.sortedBefore, hfreq x hx, hfreq y hy]
    exact h.sortedBefore hx hy (hxall y List.mem_cons_self)
  · rw [hfreq x hx, hfreq y hy, ← (h.entry x hx).2, ← (h.entry y hy).2]
  · rw [getElem?_concat_of_lt n hi] at hm
    exact ⟨h.not_child hx hm, h.not_child hy hm⟩
  · obtain ⟨e, he, rfl⟩ := h.exists_entry hm fun i k hi hk => hno i k hi ((getElem?_concat_of_lt n hi).trans hk)
    rw [Claims.sortedBefore, hfreq y hy, hfreq e he]
    rcases List.mem_cons.1 (hsort ▸ he) with rfl | hmem
    · exact .inl rfl
    rcases List.mem_cons.1 hmem with rfl | hmem
    · exact .inr (.inl rfl)
    · exact .inr (.inr (h.sortedBefore hy he (hyall e hmem)))

/-- The second loop: each turn merges the two least. -/
theorem Builder.Ordered.merge (fuel : Nat) : (Builder.merge fuel b).Ordered total := by
  induction fuel generalizing b with
  | zero => exact h
  | succ fuel ih =>
    rw [Builder.merge]
    split
    · next x y rest hsort =>
      refine ih (h.add ?_ ?_ ?_ (fun l r f heq => ?_) ?_)
      · simp [hsort, Node.children]
      · simp [hsort]
      · simp [nfreq]
      · cases heq
        exact h.mergesLeast hsort _
      · have := h.total_eq
        simp only [hsort, List.map_cons, List.sum_cons] at this
        omega
    · exact h

end Ordered

/-! ### How many nodes -/

/-- The node of the first loop for a symbol of the map. -/
def leafNode (x : Nat × Nat) : Node := .leaf (BitVec.ofNat 8 x.2) x.1

theorem Builder.nodes_addLeaves (l : List (Nat × Nat)) (b : Builder) :
    (l.foldl Builder.addLeaf b).nodes = b.nodes ++ (l.filter fun x => 0 < x.1).map leafNode := by
  induction l generalizing b with
  | nil => simp
  | cons x l ih =>
    rw [List.foldl_cons, ih, Builder.addLeaf, List.filter_cons]
    by_cases hx : 0 < x.1
    · simp [hx, Builder.add, leafNode]
    · simp [hx]

/-- An internal node with both children. -/
def Node.Full (n : Node) : Prop := ∃ l r f, n = .internal (some l) (some r) f

theorem Builder.length_sort_add (b : Builder) (n : Node) (freq : Nat) :
    (b.add n freq).sort.length = b.sort.length + 1 := (insertEntry_perm _ _).length_eq

/-- The second loop appends internal nodes, one for each entry that the sorter loses. -/
theorem Builder.nodes_merge (fuel : Nat) (b : Builder) :
    ∃ added, (Builder.merge fuel b).nodes = b.nodes ++ added ∧ (∀ n ∈ added, n.Full) ∧
      added.length + (Builder.merge fuel b).sort.length = b.sort.length := by
  induction fuel generalizing b with
  | zero => exact ⟨[], by simp [Builder.merge]⟩
  | succ fuel ih =>
    rw [Builder.merge]
    split
    · next x y rest hsort =>
      obtain ⟨added, hnodes, hfull, hlen⟩ := ih
        (({ b with sort := rest }).add (.internal (some x.node) (some y.node) (x.freq + y.freq)) (x.freq + y.freq))
      refine ⟨.internal (some x.node) (some y.node) (x.freq + y.freq) :: added, ?_, ?_, ?_⟩
      · rw [hnodes, Builder.add, List.append_assoc, List.singleton_append]
      · exact List.forall_mem_cons.2 ⟨⟨_, _, _, rfl⟩, hfull⟩
      · rw [Builder.length_sort_add] at hlen
        rw [List.length_cons, hsort]
        simp only [List.length_cons] at hlen ⊢
        omega
    · exact ⟨[], by simp⟩

/-- The symbols of the map with their frequencies, as the first loop meets them. -/
theorem filter_zipIdx_freq (f : Vector Nat 256) :
    (f.toList.zipIdx.filter fun x => 0 < x.1) = (inMap f).map fun y : Fin 256 => (f[y], y.val) := by
  have hzip : f.toList.zipIdx = (List.finRange 256).map fun y : Fin 256 => (f[y], y.val) := by
    apply List.ext_getElem
    · simp
    · intro n h₁ h₂
      simp
  rw [hzip, List.filter_map, inMap]
  rfl

/-- The leaves of TREE.BUILD, in the order of their indexes (R146). -/
def buildLeaves (f : Vector Nat 256) : List Node :=
  (inMap f).map fun y : Fin 256 => .leaf (BitVec.ofNat 8 y) f[y]

theorem Builder.nodes_leaves (f : Vector Nat 256) : (Builder.leaves f.toList).nodes = buildLeaves f := by
  rw [Builder.leaves_eq, Builder.nodes_addLeaves, filter_zipIdx_freq, List.map_map]
  rfl

theorem Builder.ordered_leaves (f : Vector Nat 256) : (Builder.leaves f.toList).Ordered f.toList.sum := by
  have hempty : Builder.Ordered ⟨[], [], 0⟩ 0 := ⟨.refl _, rfl, nofun, .nil, nofun, rfl⟩
  have h := hempty.addLeaves f.toList.zipIdx
  rwa [Nat.zero_add, List.zipIdx_map_fst] at h

/-- After the first loop every node is in the sorter. -/
theorem Builder.length_sort_leaves (f : Vector Nat 256) :
    (Builder.leaves f.toList).sort.length = (inMap f).length := by
  have hplaced := (Builder.ordered_leaves f).placed.length_eq
  have hleaf : (buildLeaves f).flatMap Node.children = [] := by
    rw [buildLeaves, List.flatMap_map]
    simp [Node.children]
  rw [Builder.placed, Builder.nodes_leaves, hleaf, List.append_nil, List.length_map, List.length_range, buildLeaves,
    List.length_map] at hplaced
  exact hplaced

/-- The builder when TREE.BUILD is done, for a map of `k` symbols (R146). -/
structure Builder.Done (f : Vector Nat 256) (b : Builder) : Prop where
  ordered : b.Ordered f.toList.sum
  nodes_eq : ∃ added, b.nodes = buildLeaves f ++ added ∧ (∀ n ∈ added, n.Full) ∧
    added.length + b.sort.length = (inMap f).length
  sort_le : b.sort.length ≤ 1

theorem Builder.done_run (f : Vector Nat 256) : (Builder.run f.toList).Done f := by
  obtain ⟨added, hnodes, hfull, hlen⟩ :=
    Builder.nodes_merge (Builder.leaves f.toList).sort.length (Builder.leaves f.toList)
  rw [Builder.nodes_leaves] at hnodes
  exact ⟨(Builder.ordered_leaves f).merge _, ⟨added, hnodes, hfull, hlen.trans (Builder.length_sort_leaves f)⟩,
    Builder.length_sort_merge (Nat.le_succ _)⟩

section Done

variable {f : Vector Nat 256} {b : Builder} (h : b.Done f)
include h

/-- A node is a leaf of the first loop or has both its children (R146). -/
theorem Builder.Done.node_cases {j : Nat} {n : Node} (hn : b.nodes[j]? = some n) :
    (∃ y : Fin 256, (inMap f)[j]? = some y ∧ n = .leaf (BitVec.ofNat 8 y) f[y]) ∨
      ((inMap f).length ≤ j ∧ n.Full) := by
  obtain ⟨added, hnodes, hfull, -⟩ := h.nodes_eq
  rw [hnodes, List.getElem?_append, buildLeaves, List.length_map] at hn
  split_ifs at hn with hj
  · rw [List.getElem?_map] at hn
    obtain ⟨y, hy, hn⟩ := Option.map_eq_some_iff.1 hn
    exact .inl ⟨y, hy, hn.symm⟩
  · exact .inr ⟨Nat.le_of_not_lt hj, hfull n (List.mem_of_getElem? hn)⟩

theorem Builder.Done.getElem?_leaf {j : Nat} {y : Fin 256} (hy : (inMap f)[j]? = some y) :
    b.nodes[j]? = some (.leaf (BitVec.ofNat 8 y) f[y]) := by
  obtain ⟨added, hnodes, -⟩ := h.nodes_eq
  have hj := (List.getElem?_eq_some_iff.1 hy).1
  rw [hnodes, List.getElem?_append_left (by simpa [buildLeaves] using hj), buildLeaves, List.getElem?_map, hy]
  rfl

/-- A child stands before its parent. -/
theorem Builder.Done.child_lt {j c : Nat} {n : Node} (hn : b.nodes[j]? = some n) (hc : c ∈ n.children) : c < j := by
  rcases h.node_cases hn with ⟨y, -, rfl⟩ | ⟨-, l, r, w, rfl⟩
  · cases hc
  · obtain ⟨hl, hr, -⟩ := h.ordered.merges j l r w hn
    simp only [Node.children, Option.toList_some, List.singleton_append, List.mem_cons, List.not_mem_nil,
      or_false] at hc
    rcases hc with rfl | rfl
    · exact hl
    · exact hr

/-- The last node has no parent, so it is what is left in the sorter. -/
theorem Builder.Done.sort_eq (hne : inMap f ≠ []) :
    ∃ e, b.sort = [e] ∧ e.node + 1 = b.nodes.length ∧ b.nodes.length = 2 * (inMap f).length - 1 := by
  obtain ⟨added, hnodes, -, hlen⟩ := h.nodes_eq
  have hnlen := congrArg List.length hnodes
  rw [List.length_append, buildLeaves, List.length_map] at hnlen
  have hpos := List.length_pos_iff.2 hne
  obtain ⟨e, he, hnode⟩ := h.ordered.exists_entry (m := b.nodes.length - 1) (by omega) fun i n hi hn hc => by
    have := h.child_lt hn hc
    omega
  obtain ⟨e', hsort⟩ := List.length_eq_one_iff.1 (Nat.le_antisymm h.sort_le (List.length_pos_of_mem he))
  rw [hsort, List.mem_singleton] at he
  subst he
  rw [hsort, List.length_singleton] at hlen
  exact ⟨e, hsort, by omega, by omega⟩

theorem Builder.Done.eq_empty (hnil : inMap f = []) : b.sort = [] ∧ b.nodes = [] := by
  obtain ⟨added, hnodes, -, hlen⟩ := h.nodes_eq
  rw [hnil, List.length_nil, Nat.add_eq_zero_iff] at hlen
  rw [buildLeaves, hnil, List.length_eq_zero_iff.1 hlen.1] at hnodes
  exact ⟨List.length_eq_zero_iff.1 hlen.2, hnodes⟩

end Done

/-! ### The tree -/

/-- The tree that TREE.BUILD makes of a map (R146, R147, R148). -/
def builtArena (f : Vector Nat 256) : Arena :=
  ⟨(Builder.run f.toList).nodes, (Builder.run f.toList).sort.head?.map SortEntry.node⟩

theorem length_builtArena (f : Vector Nat 256) : (builtArena f).nodes.length = 2 * (inMap f).length - 1 := by
  have hdone := Builder.done_run f
  by_cases hmap : inMap f = []
  · rw [builtArena, (hdone.eq_empty hmap).2, hmap]
    rfl
  · obtain ⟨e, -, -, hlen⟩ := hdone.sort_eq hmap
    exact hlen

theorem builtArena_root_of_empty {f : Vector Nat 256} (hmap : inMap f = []) : (builtArena f).root = none := by
  rw [builtArena, ((Builder.done_run f).eq_empty hmap).1]
  rfl

/-- The root is the last node, and its frequency is the sum of the map (R146). -/
theorem builtArena_root {f : Vector Nat 256} (hmap : inMap f ≠ []) :
    (builtArena f).root = some (2 * (inMap f).length - 2) ∧
      nfreq (builtArena f) (2 * (inMap f).length - 2) = f.toList.sum := by
  have hdone := Builder.done_run f
  obtain ⟨e, hsort, hnode, hlen⟩ := hdone.sort_eq hmap
  have hroot : e.node = 2 * (inMap f).length - 2 := by omega
  have hfreq := (hdone.ordered.entry e (by simp [hsort])).2
  have htotal := hdone.ordered.total_eq
  rw [hsort, List.map_singleton, List.sum_singleton] at htotal
  refine ⟨by rw [builtArena, hsort, ← hroot]; rfl, ?_⟩
  rw [← hroot, ← htotal, hfreq]
  rfl

namespace Machine

theorem treeBuildStage_eq (s : State) :
    treeBuildStage s =
      .ok { s with arena := builtArena s.freq, sort := [], seq := 2 * (inMap s.freq).length - 1 } := by
  have hdone := Builder.done_run s.freq
  have hseq := hdone.ordered.seq_eq.trans (length_builtArena s.freq)
  have hlen := hdone.sort_le
  rw [treeBuildStage, builtArena, ← hseq]
  cases hsort : (Builder.run s.freq.toList).sort with
  | nil => rfl
  | cons e rest =>
    rw [hsort, List.length_cons] at hlen
    obtain rfl : rest = [] := List.length_eq_zero_iff.1 (by omega)
    rfl

theorem exec_treeBuild {s : State} (hf : s.fault = false) :
    exec .treeBuild s =
      .next { s with
        arena := builtArena s.freq, sort := [], seq := 2 * (inMap s.freq).length - 1, status := .ok,
        response := [0x00] } :=
  exec_stage_ok (i := .treeBuild) rfl hf rfl (treeBuildStage_eq s)

end Machine

/-- Settles O34: the first loop makes the leaves, the second the internal nodes, and the last node is the root. -/
theorem treeBuildEndState : Obligations.TreeBuildEndState := by
  unfold Obligations.TreeBuildEndState
  intro s hf
  have hdone := Builder.done_run s.freq
  refine ⟨builtArena s.freq, exec_treeBuild hf, length_builtArena s.freq, builtArena_root_of_empty, builtArena_root,
    fun j y hy => hdone.getElem?_leaf hy, fun j hge hlt => ?_⟩
  have hj := List.getElem?_eq_getElem (hlt.trans_eq (length_builtArena s.freq).symm)
  rcases hdone.node_cases hj with ⟨y, hy, -⟩ | ⟨-, l, r, w, heq⟩
  · exact absurd (List.getElem?_eq_some_iff.1 hy).1 (Nat.not_lt.2 hge)
  · exact ⟨l, r, w, hj.trans (congrArg some heq)⟩

/-- Settles O35: the merges of the second loop. -/
theorem treeBuildMergesTheTwoLeast : Obligations.TreeBuildMergesTheTwoLeast := by
  unfold Obligations.TreeBuildMergesTheTwoLeast
  intro s t hf hexec j l r f hj
  cases (exec_treeBuild hf).symm.trans hexec
  exact (Builder.done_run s.freq).ordered.merges j l r f hj

/-! ### One symbol -/

/-- A map of one symbol. -/
theorem inMap_of_single {f : Vector Nat 256} {y : Fin 256} (hy : 0 < f[y]) (hothers : ∀ z : Fin 256, z ≠ y → f[z] = 0) :
    inMap f = [y] := by
  have hkeep : ∀ z ∈ List.finRange 256, decide (0 < f[z]) = decide (z = y) := fun z _ => by
    by_cases hz : z = y
    · rw [hz, decide_eq_true hy, decide_eq_true rfl]
    · rw [hothers z hz, decide_eq_false hz, decide_eq_false (Nat.lt_irrefl 0)]
  rw [inMap, List.filter_congr hkeep, List.filter_eq, List.count_eq_one_of_mem (List.nodup_finRange 256)
    (List.mem_finRange y)]
  rfl

/-- Its tree is a single leaf (R148). -/
theorem builtArena_of_single {f : Vector Nat 256} {y : Fin 256} (hmap : inMap f = [y]) :
    builtArena f = ⟨[.leaf (BitVec.ofNat 8 y) f[y]], some 0⟩ := by
  have hleaf : (builtArena f).nodes[0]? = some (.leaf (BitVec.ofNat 8 y) f[y]) :=
    (Builder.done_run f).getElem?_leaf (by rw [hmap]; rfl)
  have hlen := length_builtArena f
  have hroot := (builtArena_root (f := f) (by simp [hmap])).1
  rw [hmap] at hlen hroot
  obtain ⟨n, hn⟩ := List.length_eq_one_iff.1 hlen
  generalize builtArena f = a at hleaf hroot hn
  obtain ⟨nodes, root⟩ := a
  obtain rfl : nodes = [n] := hn
  obtain rfl : root = some 0 := hroot
  obtain rfl : n = _ := Option.some.inj hleaf
  rfl

/-- The walk of a single leaf writes one entry (R150). -/
theorem Machine.tableDeriveStage_of_single {s : State} {y : Byte} {f : Nat}
    (h : s.arena = ⟨[.leaf y f], some 0⟩) :
    tableDeriveStage s = .ok (({ s with path := .empty } : State).clearTable.setCodes [(y, [])]) := by
  have hempty : BitSeq.ofBits [] = .empty := by decide
  rw [State.setCodes_cons, hempty]
  simp only [tableDeriveStage, State.clearTable_arena, h]
  rfl

/-- Settles O36: with one symbol the first node is the root too, and the walk stops there. -/
theorem oneSymbolGetsTheEmptyCode : Obligations.OneSymbolGetsTheEmptyCode := by
  unfold Obligations.OneSymbolGetsTheEmptyCode
  intro s y hf hy hothers
  have harena := builtArena_of_single (inMap_of_single hy hothers)
  refine ⟨_, _, exec_treeBuild hf, harena,
    exec_stage_ok (i := .tableDerive) rfl hf rfl (tableDeriveStage_of_single harena),
    State.codeOf_setCodes_last _ [] [] _ [] (List.not_mem_nil), fun z => (State.validOf_setCodes _ _ z).trans ?_⟩
  rw [State.validOf_clearTable]
  simp

end Sys2Proof
end

section
/-! SUPPORT. The tree that TREE.BUILD makes (spec/41_codetree.md R146, R151): it is hierarchical, every node stands
below the root, and no leaf deeper than 255 bits. -/

namespace Sys2Proof

open Machine Claims

theorem mem_inMap {f : Vector Nat 256} {y : Fin 256} : y ∈ inMap f ↔ 0 < f[y] := by
  simp [inMap]

theorem length_inMap_le (f : Vector Nat 256) : (inMap f).length ≤ 256 :=
  (List.length_filter_le _ _).trans List.length_finRange.le

/-- TREE.BUILD makes a hierarchical arena of any map (R33, R146). -/
theorem builtArena_wf (f : Vector Nat 256) : (builtArena f).Wf := by
  have hreset : State.Inv { State.reset with freq := f } := by
    rw [← State.hostReset_reset]
    exact (State.inv_hostReset (s := State.reset) (by decide)).withFreq nofun
  obtain ⟨-, -, -, -, -, harena, -⟩ := treeBuildStage_inv hreset (treeBuildStage_eq _)
  exact harena

theorem Node.exists_child_of_mem {n : Node} {c : Nat} (h : c ∈ n.children) : ∃ b, n.child b = some c := by
  cases n with
  | leaf => cases h
  | internal l r f =>
    rcases List.mem_append.1 h with h | h
    · exact ⟨false, Option.mem_toList.1 h⟩
    · exact ⟨true, Option.mem_toList.1 h⟩

section Built

variable {f : Vector Nat 256} {root : Nat} (hroot : (builtArena f).root = some root)
include hroot

theorem inMap_ne_nil_of_root : inMap f ≠ [] := fun hnil => by
  rw [builtArena_root_of_empty hnil] at hroot
  cases hroot

/-- A tree has `k` leaves and `k - 1` internal nodes, the root the last of them (R146). -/
theorem builtArena_root_eq : root + 2 = 2 * (inMap f).length ∧ root + 1 = (builtArena f).nodes.length := by
  have hmap := inMap_ne_nil_of_root hroot
  have hpos := List.length_pos_iff.2 hmap
  have hlen := length_builtArena f
  cases hroot.symm.trans (builtArena_root hmap).1
  omega

/-- Every node but the root has a parent, which stands after it. -/
theorem builtArena_exists_parent {j : Nat} (hj : j < root) :
    ∃ i b, j < i ∧ i ≤ root ∧ childOf (builtArena f).nodes i b = some j := by
  have hdone := Builder.done_run f
  have hlen : root + 1 = (Builder.run f.toList).nodes.length := (builtArena_root_eq hroot).2
  by_contra hno
  obtain ⟨e, he, rfl⟩ := hdone.ordered.exists_entry (m := j) (by omega) fun i n hi hn hc => by
    obtain ⟨b, hb⟩ := Node.exists_child_of_mem hc
    exact hno ⟨i, b, hdone.child_lt hn hc, by omega, Option.bind_eq_some_iff.2 ⟨n, hn, hb⟩⟩
  obtain ⟨e', hsort, hlast, -⟩ := hdone.sort_eq (inMap_ne_nil_of_root hroot)
  rw [hsort, List.mem_singleton] at he
  subst he
  omega

/-- Every node of the tree stands below the root. -/
theorem builtArena_exists_path {j : Nat} (hj : j ≤ root) : ∃ p, (builtArena f).descend root p = some j := by
  have hwf := builtArena_wf f
  induction hd : root - j using Nat.strong_induction_on generalizing j with
  | _ d ih =>
    rcases Nat.eq_or_lt_of_le hj with rfl | hlt
    · exact ⟨[], Arena.descend_nil (hwf.root_spec hroot).1⟩
    · obtain ⟨i, b, hji, hi, hchild⟩ := builtArena_exists_parent hroot hlt
      obtain ⟨p, hp⟩ := ih (root - i) (by omega) hi rfl
      exact ⟨p ++ [b], by rw [hwf.descend_concat, hp]; exact hchild⟩

omit hroot in
/-- A path goes to lower and lower nodes. -/
theorem builtArena_descend_le {i j : Nat} {p : List Bool} (h : (builtArena f).descend i p = some j) :
    j + p.length ≤ i := by
  induction p generalizing i with
  | nil =>
    rw [Arena.descend_nil (Arena.descend_lt h).1] at h
    cases h
    exact Nat.le_refl _
  | cons b p ih =>
    rw [Arena.descend_cons] at h
    obtain ⟨c, hc, h⟩ := Option.bind_eq_some_iff.1 h
    obtain ⟨n, hn, hc⟩ := Option.bind_eq_some_iff.1 hc
    have hlt := (Builder.done_run f).child_lt hn (Node.mem_children_of_child hc)
    have := ih h
    rw [List.length_cons]
    omega

/-- The path to a leaf has an internal node above each of its bits, and there are 255 at most. -/
theorem builtArena_leaf_depth {p : List Bool} {y : Byte} (h : LeafAt (builtArena f) root p y) : p.length ≤ 255 := by
  rcases List.eq_nil_or_concat' p with rfl | ⟨q, b, rfl⟩
  · exact Nat.zero_le _
  obtain ⟨k, g, hk, -⟩ := h
  obtain ⟨l, r, i, g, hq, hi⟩ := inner_of_descend_append (p := q) (List.cons_ne_nil b []) (by rw [hk]; nofun)
  have hle := builtArena_descend_le hq
  have hmap := length_inMap_le f
  obtain ⟨hroot, -⟩ := builtArena_root_eq hroot
  rcases (Builder.done_run f).node_cases hi with ⟨y, -, hleaf⟩ | ⟨hge, -⟩
  · cases hleaf
  · rw [List.length_append, List.length_singleton]
    omega

end Built

/-- The leaves of the tree hold the symbols of the map (R146). -/
theorem builtArena_leaf_iff {f : Vector Nat 256} {y : Byte} :
    (∃ root p, (builtArena f).root = some root ∧ LeafAt (builtArena f) root p y) ↔ 0 < f[y.toNat] := by
  have hdone := Builder.done_run f
  constructor
  · rintro ⟨root, p, -, j, g, -, hj⟩
    rcases hdone.node_cases hj with ⟨z, hz, heq⟩ | ⟨-, l, r, w, heq⟩
    · cases heq
      have hpos := mem_inMap.1 (List.mem_of_getElem? hz)
      simpa [Nat.mod_eq_of_lt z.isLt] using hpos
    · cases heq
  · intro hpos
    have hmem : (⟨y.toNat, y.isLt⟩ : Fin 256) ∈ inMap f := mem_inMap.2 hpos
    obtain ⟨j, hlt, hj⟩ := List.getElem_of_mem hmem
    have hroot := (builtArena_root (List.ne_nil_of_mem hmem)).1
    have hleaf := hdone.getElem?_leaf ((List.getElem?_eq_getElem hlt).trans (congrArg some hj))
    obtain ⟨p, hp⟩ := builtArena_exists_path hroot (j := j) (by omega)
    rw [BitVec.ofNat_toNat, BitVec.setWidth_eq] at hleaf
    exact ⟨_, p, hroot, j, _, hp, hleaf⟩

end Sys2Proof
end

section
/-! SUPPORT. ENCODE (spec/42_hef_codec.md R178 to R183, R190): what its five stages make of IN where the capacities
are large enough. O56 follows. -/

namespace Sys2Proof

open Machine Claims

namespace Machine

/-! ### DATA.ENCODE -/

/-- What one symbol that is a key appends, within BS_CAP (R178, R179). -/
theorem encodeSymbol_ok {s : State} {data : BitSeq} {y : Byte} (hdata : data.Wf) (hcode : (s.codeOf y).Wf)
    (hy : s.validOf y = true) (hcap : capAllows s.caps.bsCap (data.bits ++ symbolBits s y).length = true) :
    encodeSymbol s data y = .ok (.ofBits (data.bits ++ symbolBits s y)) := by
  rw [List.length_append, BitSeq.length_bits] at hcap
  rw [encodeSymbol, hy, ensure_true, ok_bind]
  unfold symbolBits at hcap ⊢
  split_ifs at hcap ⊢ with hempty
  · exact pushBitCap_eq_ok.2 ⟨hcap, hdata.pushBit_eq false⟩
  · rw [BitSeq.length_bits] at hcap
    exact pushSeqCap_eq_ok.2 ⟨hcap, hdata.pushSeq_eq hcode⟩

/-- The loop of R178 over symbols that are keys, within BS_CAP. -/
theorem encodeSymbols_ok {s : State} (hs : ∀ y, (s.codeOf y).Wf) (l : List Byte) (hl : ∀ y ∈ l, s.validOf y = true)
    {data : BitSeq} (hdata : data.Wf)
    (hcap : capAllows s.caps.bsCap (data.bits ++ l.flatMap (symbolBits s)).length = true) :
    l.foldlM (encodeSymbol s) data = .ok (.ofBits (data.bits ++ l.flatMap (symbolBits s))) := by
  induction l generalizing data with
  | nil =>
    rw [List.flatMap_nil, List.append_nil, ← hdata.eq_ofBits_bits]
    rfl
  | cons y l ih =>
    obtain ⟨hy, hl⟩ := List.forall_mem_cons.1 hl
    rw [List.flatMap_cons, ← List.append_assoc] at hcap ⊢
    have hfirst : capAllows s.caps.bsCap (data.bits ++ symbolBits s y).length = true :=
      capAllows_mono (by simp) hcap
    have hrest := ih hl (BitSeq.wf_ofBits (data.bits ++ symbolBits s y)) (by rwa [BitSeq.bits_ofBits])
    rw [List.foldlM_cons, encodeSymbol_ok hdata (hs y) hy hfirst, ok_bind, hrest, BitSeq.bits_ofBits]

/-- DATA.ENCODE on an input of keys, within BS_CAP (R178). -/
theorem dataEncodeStage_ok {s : State} (hs : ∀ y, (s.codeOf y).Wf) (hkeys : ∀ y ∈ s.inBuf, s.validOf y = true)
    (hcap : capAllows s.caps.bsCap (s.inBuf.flatMap (symbolBits s)).length = true) :
    dataEncodeStage s = .ok { s with data := .ofBits (s.inBuf.flatMap (symbolBits s)) } := by
  have hloop := encodeSymbols_ok hs s.inBuf hkeys (BitSeq.fits_empty s.caps).1 hcap
  rw [dataEncodeStage, hloop, ok_bind]
  rfl

/-! ### HEF.SERIALIZE -/

theorem length_varint_le {v : Nat} {l : List Byte} (h : varint v = .ok l) : l.length ≤ 9 := by
  rw [varint] at h
  split_ifs at h
  all_goals
    cases h
    simp

/-- A list whose elements give at most `c` bits each. -/
theorem length_flatMap_le {α β : Type} {l : List α} {g : α → List β} {c : Nat} (h : ∀ x ∈ l, (g x).length ≤ c) :
    (l.flatMap g).length ≤ c * l.length := by
  induction l with
  | nil => simp
  | cons x l ih =>
    obtain ⟨hx, hl⟩ := List.forall_mem_cons.1 h
    have := ih hl
    rw [List.flatMap_cons, List.length_append, List.length_cons, Nat.mul_succ]
    omega

section Serialize

variable {s : State} (hs : ∀ y, (s.codeOf y).Wf) (hshort : s.ShortCodes)
include hshort

theorem length_codeBits_le : (s.codeBits s.alphabet).length ≤ 65280 := by
  have hle : (s.codeBits s.alphabet).length ≤ 255 * s.alphabet.length := length_flatMap_le fun y hy => by
    rw [BitSeq.length_bits]
    exact hshort y ((State.mem_alphabet s y).1 hy)
  have := s.alphabet_length_le
  omega

include hs

/-- HEF.SERIALIZE of a table of short codes, for data and a container within the capacities (R181, R183): the
container is at most 8692 bytes longer than the data. -/
theorem hefSerializeStage_ok (hbs : capAllows s.caps.bsCap 65280 = true) (hdata : s.data.size < 2 ^ 67)
    (hblob : capAllows s.caps.blobCap (8692 + s.data.size / 8) = true) :
    ∃ buf, containerBytes s.alphabet s.codeLens (s.codeBits s.alphabet) s.data.bits = .ok buf ∧
      hefSerializeStage s = .ok { s with
        taN := s.alphabet.length
        taSym := treeArray s.alphabet
        taLen := treeArray s.codeLens
        codes := .ofBits (s.codeBits s.alphabet)
        blob := buf } := by
  have hcodes := length_codeBits_le hshort
  have halphabet := s.alphabet_length_le
  obtain ⟨fieldA, hA⟩ := varint_of_lt (v := s.alphabet.length) (by omega)
  obtain ⟨fieldQ, hQ⟩ := varint_of_lt (v := s.data.bits.length / 8) (by rw [BitSeq.length_bits]; omega)
  have hbuf := containerBytes_ok (lens := s.codeLens) (s.codeBits s.alphabet) hA hQ
  have hlenA := length_varint_le hA
  have hlenQ := length_varint_le hQ
  refine ⟨_, hbuf, ?_⟩
  rw [hefSerializeStage_eq hs, if_pos ⟨hshort, capAllows_mono hcodes hbs⟩, hbuf, ok_bind]
  refine storeContainer_ok (capAllows_mono ?_ hblob)
  simp only [List.length_append, List.length_singleton, length_pack, State.codeLens, List.length_map,
    BitSeq.length_bits, ceil8]
  omega

end Serialize

/-! ### A table and its input -/

section Table

variable {s : State} (hshort : s.ShortCodes) (hkeys : ∀ y ∈ s.inBuf, s.validOf y = true)
include hshort hkeys

/-- Short codes give at most 255 bits of data per symbol (R178, R179). -/
theorem length_symbolBits_le : (s.inBuf.flatMap (symbolBits s)).length ≤ 255 * s.inBuf.length := by
  refine length_flatMap_le fun y hy => ?_
  unfold symbolBits
  split_ifs
  · simp
  · rw [BitSeq.length_bits]
    exact hshort y (hkeys y hy)

/-- The last two stages of ENCODE, where the capacities are large enough (R178, R181). -/
theorem encodeTable_ok (hs : ∀ y, (s.codeOf y).Wf) (hin : s.inBuf.length < 2 ^ 59)
    (hbs : capAllows s.caps.bsCap (65280 + 255 * s.inBuf.length) = true)
    (hblob : capAllows s.caps.blobCap (9000 + 32 * s.inBuf.length) = true) :
    ∃ buf, containerBytes s.alphabet s.codeLens (s.codeBits s.alphabet) (s.inBuf.flatMap (symbolBits s)) = .ok buf ∧
      dataEncodeStage s >>= hefSerializeStage = .ok { s with
        data := .ofBits (s.inBuf.flatMap (symbolBits s))
        taN := s.alphabet.length
        taSym := treeArray s.alphabet
        taLen := treeArray s.codeLens
        codes := .ofBits (s.codeBits s.alphabet)
        blob := buf } := by
  have hbits := length_symbolBits_le hshort hkeys
  rw [dataEncodeStage_ok hs hkeys (capAllows_mono (hbits.trans (Nat.le_add_left _ _)) hbs), ok_bind]
  generalize s.inBuf.flatMap (symbolBits s) = bits at hbits
  have hsize : (BitSeq.ofBits bits).size = bits.length := BitSeq.size_ofBits bits
  obtain ⟨buf, hbuf, hstage⟩ := hefSerializeStage_ok (s := { s with data := .ofBits bits }) hs hshort
    (capAllows_mono (Nat.le_add_right _ _) hbs) (by dsimp only; omega) (capAllows_mono (by dsimp only; omega) hblob)
  exact ⟨buf, by rw [← hbuf, BitSeq.bits_ofBits]; rfl, hstage⟩

end Table

/-! ### The five stages -/

theorem State.derived_frame (s : State) :
    s.derived = { s with code := s.derived.code, codeValid := s.derived.codeValid, path := .empty } := by
  rw [State.derived, State.setCodes_frame]
  rfl

theorem State.wf_codeOf_derived {s : State} (h : s.arena.Wf) (y : Byte) : (s.derived.codeOf y).Wf := by
  cases hy : s.derived.validOf y with
  | false =>
    rw [State.codeOf_derived_of_invalid hy]
    decide
  | true =>
    obtain ⟨root, p, -, -, hcode, -⟩ := State.codeOf_derived h hy
    rw [hcode]
    exact BitSeq.wf_ofBits p

/-- The state after the second stage of ENCODE: the counts of IN and their tree (R190). -/
def State.encodeTree (s : State) : State :=
  { s with
    freq := countAll s.inBuf
    arena := builtArena (countAll s.inBuf)
    sort := []
    seq := 2 * (inMap (countAll s.inBuf)).length - 1 }

section Encode

variable (s : State)

/-- The keys of ENCODE's table are the symbols of IN (R190). -/
theorem State.validOf_encodeTree (y : Byte) : s.encodeTree.derived.validOf y = true ↔ y ∈ s.inBuf := by
  have hfreq : (countAll s.inBuf)[y.toNat] = s.inBuf.count y := by
    rw [getElem_countAll _ _ y.isLt, BitVec.ofNat_toNat, BitVec.setWidth_eq]
  rw [State.validOf_derived (builtArena_wf _)]
  exact builtArena_leaf_iff.trans (hfreq ▸ List.count_pos_iff)

/-- No code of ENCODE's table is longer than 255 bits (R94, R183). -/
theorem State.shortCodes_encodeTree : s.encodeTree.derived.ShortCodes := by
  intro y hy
  obtain ⟨root, p, hroot, hleaf, hcode, -⟩ := State.codeOf_derived (builtArena_wf _) hy
  rw [hcode, BitSeq.size_ofBits]
  exact builtArena_leaf_depth hroot hleaf

/-- BS_CAP allows the paths of ENCODE's tree: no path has more than 510 bits. -/
theorem State.depthFits_encodeTree (hbs : capAllows s.caps.bsCap 65280 = true) : DepthFits s.encodeTree := by
  intro root j p hroot hp
  have hle := builtArena_descend_le hp
  have hroot := (builtArena_root_eq hroot).1
  have := length_inMap_le (countAll s.inBuf)
  exact capAllows_mono (by omega) hbs

/-- ENCODE completes where the capacities are large enough, with the container of a `PrefixFree` table `u` of the
symbols of IN (R190). -/
theorem encodeStage_ok {s : State} (hin : s.inBuf.length < 2 ^ 59)
    (hbs : capAllows s.caps.bsCap (65280 + 255 * s.inBuf.length) = true)
    (hblob : capAllows s.caps.blobCap (9000 + 32 * s.inBuf.length) = true) :
    ∃ (u : State) (buf : List Byte), (∀ y, u.validOf y = true ↔ y ∈ s.inBuf) ∧ PrefixFree u ∧ u.ShortCodes ∧
      containerBytes u.alphabet u.codeLens (u.codeBits u.alphabet) (s.inBuf.flatMap (symbolBits u)) = .ok buf ∧
      encodeStage s = .ok { u with
        data := .ofBits (s.inBuf.flatMap (symbolBits u))
        taN := u.alphabet.length
        taSym := treeArray u.alphabet
        taLen := treeArray u.codeLens
        codes := .ofBits (u.codeBits u.alphabet)
        blob := buf } := by
  have hwf := State.wf_codeOf_derived (s := s.encodeTree) (builtArena_wf _)
  have hkeys := s.validOf_encodeTree
  have hfree := State.prefixFree_derived (s := s.encodeTree) (builtArena_wf _)
  have hshort := s.shortCodes_encodeTree
  have hcaps : s.encodeTree.derived.caps = s.caps := by rw [State.derived_frame]; rfl
  have hinBuf : s.encodeTree.derived.inBuf = s.inBuf := by rw [State.derived_frame]; rfl
  have hderive : tableDeriveStage s.encodeTree = .ok s.encodeTree.derived :=
    (tableDeriveStage_answers (builtArena_wf _)).elim And.right fun h =>
      absurd (s.depthFits_encodeTree (capAllows_mono (Nat.le_add_right _ _) hbs)) h.1
  have hbuild : treeBuildStage { s with freq := countAll s.inBuf } = .ok s.encodeTree := treeBuildStage_eq _
  have hstage : encodeStage s = dataEncodeStage s.encodeTree.derived >>= hefSerializeStage := by
    rw [encodeStage, freqCountStage_eq, ok_bind, hbuild, ok_bind, hderive, ok_bind]
  generalize s.encodeTree.derived = u at *
  rw [← hinBuf, ← hcaps] at hbs hblob
  rw [← hinBuf] at hin hkeys ⊢
  obtain ⟨buf, hbuf, htable⟩ := encodeTable_ok hshort (fun y => (hkeys y).2) hwf hin hbs hblob
  exact ⟨u, buf, hkeys, hfree, hshort, hbuf, hstage.trans htable⟩

end Encode

/-- What ENCODE leaves as it was, and OUT and CUR among it (R190). -/
theorem encodeStage_keeps {s t : State} (h : encodeStage s = .ok t) :
    t.inBuf = s.inBuf ∧ t.outBuf = s.outBuf ∧ t.cur = s.cur ∧ t.tmp = s.tmp ∧ t.fault = s.fault ∧
      t.faultCause = s.faultCause := by
  rw [encodeStage_frame h]
  exact ⟨rfl, rfl, rfl, rfl, rfl, rfl⟩

end Machine

/-- Settles O56: with unbounded capacities the five stages complete. -/
theorem encodeWritesTheContainerOfItsInput : Obligations.EncodeWritesTheContainerOfItsInput := by
  unfold Obligations.EncodeWritesTheContainerOfItsInput
  intro s hf hbs hblob hin
  obtain ⟨u, buf, hkeys, hfree, hshort, hbuf, hstage⟩ :=
    encodeStage_ok hin (by rw [hbs]; rfl) (by rw [hblob]; rfl)
  obtain ⟨hin', hout, hcur, htmp, hfault, hcause⟩ := encodeStage_keeps hstage
  refine ⟨_, exec_stage_ok (i := .encodeInput) rfl hf rfl hstage, rfl, rfl, hkeys, hfree, hshort, rfl, ?_, hin', hout,
    hcur, htmp, hfault.trans hf, hcause⟩
  exact (congrArg (containerBytes _ _ _) (BitSeq.bits_ofBits _)).trans hbuf

end Sys2Proof
end

section
/-! SUPPORT. DECODE (spec/42_hef_codec.md R162, R185, R188, R192, R193): what its four stages make of the container of
a `PrefixFree` table. O58 follows. -/

namespace Sys2Proof

open Machine Claims

/-! ### Containers as the writer leaves them -/

theorem leNat_operandBytes_of {k w v : Nat} (hw : w = 8 * k) (hv : v < 256 ^ k) :
    leBytes k (BitVec.ofNat w v).toNat = leBytes k v ∧ leNat (leBytes k v) = v := by
  have hpow : 2 ^ w = 256 ^ k := by rw [hw, Nat.pow_mul]
  refine ⟨?_, leNat_leBytes hv⟩
  rw [BitVec.toNat_ofNat, hpow, Nat.mod_eq_of_lt hv]

/-- What the writer puts down for a number is a varint of that value (R90, R171). -/
theorem Machine.varint_eq_encode {v : Nat} {l : List Byte} (h : varint v = .ok l) :
    ∃ i : Instr, i.isVarint = true ∧ encode i = l ∧ leNat i.operandBytes = v := by
  rw [varint] at h
  split_ifs at h with h0 h1 h2 h3
  · obtain ⟨hbytes, hvalue⟩ := leNat_operandBytes_of (k := 1) (w := 8) rfl (v := v) (by omega)
    cases h
    exact ⟨.varintTag0 (BitVec.ofNat 8 v), rfl, congrArg (0x00 :: ·) hbytes, (congrArg leNat hbytes).trans hvalue⟩
  · obtain ⟨hbytes, hvalue⟩ := leNat_operandBytes_of (k := 2) (w := 16) rfl (v := v) (by omega)
    cases h
    exact ⟨.varintTag1 (BitVec.ofNat 16 v), rfl, congrArg (0x01 :: ·) hbytes, (congrArg leNat hbytes).trans hvalue⟩
  · obtain ⟨hbytes, hvalue⟩ := leNat_operandBytes_of (k := 4) (w := 32) rfl (v := v) (by omega)
    cases h
    exact ⟨.varintTag2 (BitVec.ofNat 32 v), rfl, congrArg (0x02 :: ·) hbytes, (congrArg leNat hbytes).trans hvalue⟩
  · obtain ⟨hbytes, hvalue⟩ := leNat_operandBytes_of (k := 8) (w := 64) rfl (v := v) (by omega)
    cases h
    exact ⟨.varintTag3 (BitVec.ofNat 64 v), rfl, congrArg (0x03 :: ·) hbytes, (congrArg leNat hbytes).trans hvalue⟩

/-- The fields of a container that the writer made (R92). -/
theorem Machine.containerBytes_eq_ok {syms lens buf : List Byte} {codeBits dataBits : List Bool}
    (h : containerBytes syms lens codeBits dataBits = .ok buf) :
    ∃ fieldA fieldQ : Instr, fieldA.isVarint = true ∧ fieldQ.isVarint = true ∧
      leNat fieldA.operandBytes = syms.length ∧ leNat fieldQ.operandBytes = dataBits.length / 8 ∧
      buf = headBytes fieldA syms lens (pack codeBits) fieldQ (BitVec.ofNat 8 (dataBits.length % 8)) ++
        pack dataBits := by
  obtain ⟨lA, hA, h⟩ := res_bind_ok.1 h
  obtain ⟨lQ, hQ, h⟩ := res_bind_ok.1 h
  cases h
  obtain ⟨fieldA, hvarA, rfl, hvalA⟩ := varint_eq_encode hA
  obtain ⟨fieldQ, hvarQ, rfl, hvalQ⟩ := varint_eq_encode hQ
  exact ⟨fieldA, fieldQ, hvarA, hvarQ, hvalA, hvalQ, rfl⟩

/-- A stage read off the command that runs it alone and ends OK (R227). -/
theorem Machine.stage_of_exec {i : Instr} {stage : State → Res State} {s t : State}
    (hrule : i.rule = withoutResult stage) (hf : s.fault = false) (hexec : exec i s = .next t) (hok : t.status = .ok) :
    ∃ u, stage s = .ok u ∧ t = u.finish [] := by
  obtain ⟨hf', -⟩ | ⟨-, -, rfl⟩ | ⟨-, -, u, l, hstage, rfl⟩ | ⟨-, -, r, -, rfl⟩ := exec_cases hexec
  · cases hf.symm.trans hf'
  · cases hok
  · rw [hrule, withoutResult_eq_ok] at hstage
    exact ⟨u, hstage.1, by rw [hstage.2]⟩
  · cases r <;> cases hok

/-- The first stage of DECODE on a container that the writer made, within BS_CAP (R185). -/
theorem Machine.hefDeserializeStage_of_container {s : State} {syms lens buf tail : List Byte}
    {codeBits dataBits : List Bool} (hf : s.fault = false)
    (hbuf : containerBytes syms lens codeBits dataBits = .ok buf) (hblob : s.blob = buf ++ tail)
    (hlens : lens.length = syms.length) (hsyms : syms.length ≤ 256)
    (hcodes : (lens.map BitVec.toNat).sum = codeBits.length)
    (hcapCodes : capAllows s.caps.bsCap codeBits.length = true)
    (hcapData : capAllows s.caps.bsCap dataBits.length = true) :
    hefDeserializeStage s = .ok { s with
      cur := buf.length
      taN := syms.length
      taSym := treeArray syms
      taLen := treeArray lens
      codes := .ofBits codeBits
      data := .ofBits dataBits } := by
  obtain ⟨fieldA, fieldQ, hvarA, hvarQ, hvalA, hvalQ, rfl⟩ := containerBytes_eq_ok hbuf
  have hrem : (BitVec.ofNat 8 (dataBits.length % 8)).toNat = dataBits.length % 8 := by
    rw [BitVec.toNat_ofNat]
    omega
  have hcount : bitCount fieldQ (BitVec.ofNat 8 (dataBits.length % 8)) = dataBits.length := by
    rw [bitCount, hrem, hvalQ]
    omega
  have hfits : HeadFits fieldA syms lens (pack codeBits) fieldQ :=
    ⟨hvarA, hvarQ, hvalA, hlens, hsyms, by rw [length_pack, hcodes, ceil8]⟩
  have hexec := hefDeserializeReadsTheContainer s fieldA fieldQ syms lens (pack codeBits) (pack dataBits) tail
    (BitVec.ofNat 8 (dataBits.length % 8)) hf hfits (by omega) (by rw [length_pack, hcount, ceil8]) hblob
    (by rwa [hcodes]) (by rwa [hcount])
  obtain ⟨u, hstage, hu⟩ := stage_of_exec (i := .hefDeserialize) rfl hf hexec rfl
  rw [hcodes, hcount, unpack_pack, unpack_pack] at hu
  have hcur : u.cur = (headBytes fieldA syms lens (pack codeBits) fieldQ (BitVec.ofNat 8 (dataBits.length % 8)) ++
      pack dataBits).length := (congrArg State.cur hu).symm.trans List.length_append.symm
  have htaN : u.taN = syms.length := (congrArg State.taN hu).symm
  have htaSym : u.taSym = treeArray syms := (congrArg State.taSym hu).symm
  have htaLen : u.taLen = treeArray lens := (congrArg State.taLen hu).symm
  have hcodesReg : u.codes = .ofBits codeBits := (congrArg State.codes hu).symm
  have hdataReg : u.data = .ofBits dataBits := (congrArg State.data hu).symm
  rw [hstage, hefDeserializeStage_frame hstage, hcur, htaN, htaSym, htaLen, hcodesReg, hdataReg]

/-! ### The tree arrays -/

theorem Machine.toList_treeArray {l : List Byte} (h : l.length ≤ 256) :
    (treeArray l).toList = l ++ List.replicate (256 - l.length) 0 := by
  refine List.ext_getElem (by simp; omega) fun i hi _ => ?_
  rw [List.getElem_append]
  split_ifs with hl
  · simp [treeArray, hl]
  · simp [treeArray, List.getElem?_eq_none (Nat.not_lt.1 hl)]

/-- The entries that a list of pairs leaves in the tree arrays (R38). -/
theorem Machine.State.taEntries_of {α : Type} {s : State} {l : List α} {f g : α → Byte} (h : l.length ≤ 256)
    (hn : s.taN = l.length) (hsym : s.taSym = treeArray (l.map f)) (hlen : s.taLen = treeArray (l.map g)) :
    s.taEntries = l.map fun x => (f x, g x) := by
  have hf : (l.map f).length = l.length := List.length_map f
  have hg : (l.map g).length = l.length := List.length_map g
  rw [State.taEntries, hn, hsym, hlen, toList_treeArray (hf.le.trans h), toList_treeArray (hg.le.trans h),
    List.zip_append (hf.trans hg.symm), List.zip_map', List.take_left' (List.length_map _)]

/-! ### TABLE.LOAD -/

/-- The bits of CODES that one entry takes (R188). -/
theorem Machine.range_map_at (pre q post : List Bool) :
    ((List.range q.length).map fun j => (BitSeq.ofBits (pre ++ (q ++ post))).at (pre.length + j)) = q := by
  refine List.ext_getElem (by simp) fun j _ hj => ?_
  rw [List.getElem_map, List.getElem_range, BitSeq.at_eq_blockBit, BitSeq.blockBit_ofBits, ← List.append_assoc,
    List.getD_eq_getElem?_getD, List.getElem?_append_left (by simpa using hj),
    List.getElem?_append_right (Nat.le_add_right _ _),
    Nat.add_sub_cancel_left, List.getElem?_eq_getElem hj, Option.getD_some]

/-- TABLE.LOAD's loop over entries of different symbols, none of them a key, whose codes stand in CODES one after
another. -/
theorem Machine.loadEntries_ok (l : List (Byte × List Bool)) (hlens : ∀ e ∈ l, e.2.length ≤ 255)
    (hkeys : (l.map Prod.fst).Nodup) {s : State} (hfree : ∀ e ∈ l, s.validOf e.1 = false) (pre : List Bool) :
    loadEntries (.ofBits (pre ++ l.flatMap Prod.snd)) pre.length
      (l.map fun e => (e.1, BitVec.ofNat 8 e.2.length)) s = .ok (s.setCodes l) := by
  induction l generalizing s pre with
  | nil => rfl
  | cons e l ih =>
    obtain ⟨he, hlens⟩ := List.forall_mem_cons.1 hlens
    obtain ⟨hvalid, hfree⟩ := List.forall_mem_cons.1 hfree
    rw [List.map_cons, List.nodup_cons] at hkeys
    obtain ⟨hnew, hkeys⟩ := hkeys
    have hlen : (BitVec.ofNat 8 e.2.length).toNat = e.2.length := by
      rw [BitVec.toNat_ofNat]
      omega
    have hfits : pre.length + e.2.length ≤ (BitSeq.ofBits (pre ++ (e.2 ++ l.flatMap Prod.snd))).size := by
      rw [BitSeq.size_ofBits, List.length_append, List.length_append]
      omega
    have hfree' : ∀ e' ∈ l, (s.setCode e.1 (.ofBits e.2)).validOf e'.1 = false := fun e' he' =>
      (State.validOf_setCode_ne s e.1 e'.1 _ fun h => hnew (h ▸ List.mem_map_of_mem he')).trans (hfree e' he')
    have hrest := ih hlens hkeys hfree' (pre ++ e.2)
    rw [List.append_assoc, List.length_append] at hrest
    rw [List.map_cons, List.flatMap_cons, loadEntries, hvalid, hlen, Bool.not_false, ensure_true, ok_bind,
      decide_eq_true hfits, ensure_true, ok_bind, range_map_at, hrest, State.setCodes_cons]

/-- TABLE.LOAD of entries of different symbols: the table holds them and nothing else (R188). -/
theorem Machine.tableLoadStage_ok {s : State} (l : List (Byte × List Bool)) (hlens : ∀ e ∈ l, e.2.length ≤ 255)
    (hkeys : (l.map Prod.fst).Nodup) (hta : s.taEntries = l.map fun e => (e.1, BitVec.ofNat 8 e.2.length))
    (hcodes : s.codes = .ofBits (l.flatMap Prod.snd)) : tableLoadStage s = .ok (s.clearTable.setCodes l) := by
  rw [tableLoadStage, hta, hcodes]
  exact loadEntries_ok l hlens hkeys (fun e _ => State.validOf_clearTable s e.1) []

/-! ### The table -/

/-- `s` holds exactly the table of these entries. -/
structure Machine.State.Holds (s : State) (l : List (Byte × List Bool)) : Prop where
  key : ∀ e ∈ l, s.validOf e.1 = true
  code : ∀ e ∈ l, s.codeOf e.1 = .ofBits e.2
  other : ∀ y ∉ l.map Prod.fst, s.validOf y = false

theorem Machine.State.holds_setCodes (s : State) {l : List (Byte × List Bool)} (hkeys : (l.map Prod.fst).Nodup) :
    (s.clearTable.setCodes l).Holds l where
  key e he := (State.validOf_setCodes _ l e.1).2 (.inr (List.mem_map_of_mem he))
  code e he := by
    obtain ⟨before, after, rfl⟩ := List.append_of_mem he
    rw [List.map_append, List.map_cons] at hkeys
    exact State.codeOf_setCodes_last _ before after e.1 e.2 hkeys.of_append_right.notMem
  other y hy := by
    rw [← Bool.not_eq_true, State.validOf_setCodes, State.validOf_clearTable]
    simpa using hy

/-- No more entries than bytes. -/
theorem length_le_of_nodup_keys {l : List (Byte × List Bool)} (hkeys : (l.map Prod.fst).Nodup) : l.length ≤ 256 := by
  have hsub : l.map Prod.fst ⊆ (State.reset.clearTable.setCodes l).alphabet := fun y hy =>
    (State.mem_alphabet _ _).2 ((State.validOf_setCodes _ l y).2 (.inr hy))
  calc l.length = (l.map Prod.fst).length := (List.length_map _).symm
    _ ≤ _ := (hkeys.subperm hsub).length_le
    _ ≤ 256 := State.alphabet_length_le _

/-- No code begins another's. -/
def CodesApart (e e' : Byte × List Bool) : Prop := ¬ e.2 <+: e'.2 ∧ ¬ e'.2 <+: e.2

theorem not_isPrefix_of_pairwise_apart {l : List (Byte × List Bool)} (h : l.Pairwise CodesApart) {e e' : Byte × List Bool}
    (he : e ∈ l) (he' : e' ∈ l) (hne : e ≠ e') : ¬ e.2 <+: e'.2 := by
  have : Std.Symm CodesApart := ⟨fun _ _ h => ⟨h.2, h.1⟩⟩
  exact (h.forall he he' hne).1

namespace Machine

section Table

variable {s : State} {l : List (Byte × List Bool)}

theorem State.Holds.exists_mem (h : s.Holds l) {y : Byte} (hy : s.validOf y = true) : ∃ p, (y, p) ∈ l := by
  by_contra hnot
  have hother := h.other y fun hmem => by
    obtain ⟨e, he, rfl⟩ := List.mem_map.1 hmem
    exact hnot ⟨e.2, he⟩
  cases hother.symm.trans hy

theorem State.Holds.bitsOf_eq (h : s.Holds l) {e : Byte × List Bool} (he : e ∈ l) : bitsOf s.codeOf e.1 = e.2 := by
  rw [bitsOf, h.code e he, BitSeq.bits_ofBits]

theorem State.Holds.mem_alphabet (h : s.Holds l) {e : Byte × List Bool} (he : e ∈ l) : e.1 ∈ s.alphabet :=
  (State.mem_alphabet s e.1).2 (h.key e he)

theorem State.Holds.prefixFree (h : s.Holds l) (hl : l.Pairwise CodesApart) : PrefixFree s := by
  intro y z hy hz hne
  obtain ⟨p, hp⟩ := h.exists_mem hy
  obtain ⟨q, hq⟩ := h.exists_mem hz
  rw [h.code _ hp, h.code _ hq, BitSeq.bits_ofBits, BitSeq.bits_ofBits]
  exact not_isPrefix_of_pairwise_apart hl hp hq fun heq => hne (congrArg Prod.fst heq)

/-- 256 codes of at most 255 bits have fewer prefixes than NODE_CAP has nodes. -/
theorem State.Holds.not_tooManyNodes (h : s.Holds l) (hlens : ∀ e ∈ l, e.2.length ≤ 255) :
    ¬ TooManyNodes (bitsOf s.codeOf) s.alphabet := by
  rintro ⟨ps, hnodup, hps, hcap⟩
  have hsub : ps ⊆ s.alphabet.flatMap fun y => longerPrefixes [] (bitsOf s.codeOf y) := by
    intro p hp
    obtain ⟨hne, y, hy, hpre⟩ := hps p hp
    obtain ⟨b, t, rfl⟩ := List.exists_cons_of_ne_nil hne
    exact List.mem_flatMap.2 ⟨y, hy, mem_longerPrefixes.2 ⟨b, t, rfl, hpre⟩⟩
  have hshort : ∀ y ∈ s.alphabet, (longerPrefixes [] (bitsOf s.codeOf y)).length ≤ 255 := by
    intro y hy
    obtain ⟨p, hp⟩ := h.exists_mem ((State.mem_alphabet s y).1 hy)
    rw [length_longerPrefixes, h.bitsOf_eq hp]
    exact hlens _ hp
  have hnodes := (hnodup.subperm hsub).length_le.trans (length_flatMap_le hshort)
  have hkeys := State.alphabet_length_le s
  have hnodeCap : Config.nodeCap = 65281 := rfl
  omega

end Table

/-- TREE.FROM_TABLE of a `PrefixFree` table of at most 255 bits a code completes. -/
theorem State.Holds.treeFromTableStage_ok {s : State} {l : List (Byte × List Bool)} (h : s.Holds l)
    (hl : l.Pairwise CodesApart) (hlens : ∀ e ∈ l, e.2.length ≤ 255) :
    ∃ a, treeFromTableStage s = .ok { s with arena := a } ∧ Built (bitsOf s.codeOf) s.alphabet a :=
  (treeFromTableStage_of_prefixFree (h.prefixFree hl)).resolve_right fun hmany => h.not_tooManyNodes hlens hmany.2

end Machine

/-! ### The data bits -/

theorem entryBits_eq {l : List (Byte × List Bool)} (hkeys : (l.map Prod.fst).Nodup) {e : Byte × List Bool}
    (he : e ∈ l) : entryBits l e.1 = if e.2 = [] then [false] else e.2 := by
  have hsome : (l.find? fun e' => e'.1 == e.1).isSome := List.find?_isSome.2 ⟨e, he, beq_self_eq_true e.1⟩
  obtain ⟨e', he'⟩ := Option.isSome_iff_exists.1 hsome
  have hkey : e'.1 = e.1 := by simpa using List.find?_some he'
  obtain rfl : e' = e := List.inj_on_of_nodup_map hkeys (List.mem_of_find?_eq_some he') he hkey
  rw [entryBits, he']

namespace Machine

variable {s : State} {l : List (Byte × List Bool)} {a : Arena} {syms : List Byte}

/-- With one entry and the empty code, each bit gives its symbol (R159). -/
theorem State.Holds.decodeBits_of_emptyCode (h : s.Holds l) (hl : l.Pairwise CodesApart) (hkeys : (l.map Prod.fst).Nodup)
    (ha : Built (bitsOf s.codeOf) s.alphabet a) (hsyms : ∀ y ∈ syms, y ∈ l.map Prod.fst) {y : Byte}
    (hy : (y, []) ∈ l) : decodeBits a (syms.flatMap (entryBits l)) = .ok syms := by
  have hall : ∀ z ∈ syms, z = y := by
    intro z hz
    obtain ⟨e, he, rfl⟩ := List.mem_map.1 (hsyms z hz)
    by_contra hne
    exact not_isPrefix_of_pairwise_apart hl hy he (fun heq => hne (congrArg Prod.fst heq).symm) List.nil_prefix
  have hleaf : LeafAt a 0 [] y := (ha.leaf [] y).2 ⟨h.mem_alphabet hy, (h.bitsOf_eq hy).symm⟩
  have hbits : entryBits l y = [false] := entryBits_eq hkeys hy
  obtain ⟨n, rfl⟩ : ∃ n, syms = List.replicate n y := ⟨_, List.eq_replicate_of_mem hall⟩
  rw [decodeBits_leafRoot ha.root_eq hleaf]
  simp [hbits]

/-- With no empty code, the codes of symbols are the paths to their leaves (R157). -/
theorem State.Holds.decodeBits_of_codes (h : s.Holds l) (hkeys : (l.map Prod.fst).Nodup)
    (ha : Built (bitsOf s.codeOf) s.alphabet a) (hsyms : ∀ y ∈ syms, y ∈ l.map Prod.fst)
    (hne : ∀ e ∈ l, e.2 ≠ []) : decodeBits a (syms.flatMap (entryBits l)) = .ok syms := by
  have hinner : Inner a 0 [] := (ha.inner []).2 ⟨.inl rfl, by
    intro y hy heq
    obtain ⟨p, hp⟩ := h.exists_mem ((State.mem_alphabet s y).1 hy)
    exact hne _ hp ((h.bitsOf_eq hp).symm.trans heq.symm)⟩
  obtain ⟨left, right, hroot⟩ := id hinner
  have hwords : ∀ w ∈ syms.map fun y => (entryBits l y, y), LeafAt a 0 w.1 w.2 := by
    intro w hw
    obtain ⟨z, hz, rfl⟩ := List.mem_map.1 hw
    obtain ⟨e, he, rfl⟩ := List.mem_map.1 (hsyms z hz)
    refine (ha.leaf _ _).2 ⟨h.mem_alphabet he, ?_⟩
    rw [h.bitsOf_eq he, entryBits_eq hkeys he, if_neg (hne e he)]
  have hwalk := decodeBits_words_tail ha.root_eq hroot hwords hinner
  simpa [List.flatMap_map, List.map_map, Function.comp_def] using hwalk

theorem State.Holds.decodeBits_eq (h : s.Holds l) (hl : l.Pairwise CodesApart) (hkeys : (l.map Prod.fst).Nodup)
    (ha : Built (bitsOf s.codeOf) s.alphabet a) (hsyms : ∀ y ∈ syms, y ∈ l.map Prod.fst) :
    decodeBits a (syms.flatMap (entryBits l)) = .ok syms := by
  by_cases hempty : ∃ y, (y, []) ∈ l
  · obtain ⟨y, hy⟩ := hempty
    exact h.decodeBits_of_emptyCode hl hkeys ha hsyms hy
  · exact h.decodeBits_of_codes hkeys ha hsyms fun e he hnil => hempty ⟨e.1, hnil ▸ he⟩

/-- The last three stages of DECODE, on tree arrays that list `l` and with the codes of keys in DATA (R192). -/
theorem decodeStage_of_deserialized {s₁ : State} (hs : hefDeserializeStage s = .ok s₁)
    (hta : s₁.taEntries = l.map fun e => (e.1, BitVec.ofNat 8 e.2.length))
    (hcodes : s₁.codes = .ofBits (l.flatMap Prod.snd)) (hdata : s₁.data = .ofBits (syms.flatMap (entryBits l)))
    (hcap : capAllows s₁.caps.outCap (s₁.outBuf.length + syms.length) = true) (hlens : ∀ e ∈ l, e.2.length ≤ 255)
    (hl : l.Pairwise CodesApart) (hkeys : (l.map Prod.fst).Nodup) (hsyms : ∀ y ∈ syms, y ∈ l.map Prod.fst) :
    ∃ t, decodeStage s = .ok t ∧ t.Holds l ∧ t.outBuf = s₁.outBuf ++ syms ∧ t.cur = s₁.cur := by
  have hload := tableLoadStage_ok l hlens hkeys hta hcodes
  have hholds := State.holds_setCodes s₁ hkeys
  have hframe := tableLoadStage_frame hload
  generalize s₁.clearTable.setCodes l = s₂ at hload hholds hframe
  obtain ⟨a, htree, ha⟩ := hholds.treeFromTableStage_ok hl hlens
  have hout : decodeBits a s₂.data.bits = .ok syms := by
    rw [hframe, hdata, BitSeq.bits_ofBits]
    exact hholds.decodeBits_eq hl hkeys ha hsyms
  have hdecode := treeDecodeStage_of_decodeBits (s := { s₂ with arena := a }) hout
  rw [if_pos (by rw [hframe]; exact hcap)] at hdecode
  refine ⟨{ s₂ with arena := a, outBuf := s₂.outBuf ++ syms }, ?_, ⟨hholds.key, hholds.code, hholds.other⟩, ?_, ?_⟩
  · rw [decodeStage, hs, ok_bind, hload, ok_bind, htree, ok_bind, hdecode]
  · rw [hframe]
  · rw [hframe]

/-- What DECODE leaves as it was (R192). -/
theorem decodeStage_keeps {t : State} (h : decodeStage s = .ok t) :
    t.inBuf = s.inBuf ∧ t.blob = s.blob ∧ t.freq = s.freq ∧ t.sort = s.sort ∧ t.seq = s.seq ∧ t.path = s.path ∧
      t.tmp = s.tmp ∧ t.fault = s.fault ∧ t.faultCause = s.faultCause := by
  rw [decodeStage_frame h]
  exact ⟨rfl, rfl, rfl, rfl, rfl, rfl, rfl, rfl, rfl⟩

end Machine

/-- Settles O58: the first stage reads the container, and the others find its table `PrefixFree`. -/
theorem decodeAppendsTheSymbols : Obligations.DecodeAppendsTheSymbols := by
  unfold Obligations.DecodeAppendsTheSymbols
  intro s l syms buf tail hf hbs hcap hkeys hlens hl hsyms hbuf hblob
  have hcount := length_le_of_nodup_keys hkeys
  have hsum : ((l.map fun e => BitVec.ofNat 8 e.2.length).map BitVec.toNat).sum = (l.flatMap Prod.snd).length := by
    rw [List.map_map, List.length_flatMap]
    refine congrArg List.sum (List.map_congr_left fun e he => ?_)
    exact Nat.mod_eq_of_lt (Nat.lt_succ_of_le (hlens e he))
  have hdes := hefDeserializeStage_of_container hf hbuf hblob (by simp) (by simpa using hcount) hsum
    (by rw [hbs]; rfl) (by rw [hbs]; rfl)
  obtain ⟨t, hstage, hholds, hout, hcur⟩ := decodeStage_of_deserialized hdes
    (State.taEntries_of hcount (List.length_map _) rfl rfl) rfl rfl hcap hlens hl hkeys hsyms
  obtain ⟨hin, hblob', hfreq, hsort, hseq, hpath, htmp, hfault, hcause⟩ := decodeStage_keeps hstage
  exact ⟨_, exec_stage_ok (i := .decodeBlob) rfl hf rfl hstage, rfl, rfl, hout, hcur,
    fun e he => ⟨hholds.key e he, hholds.code e he⟩, hholds.other, hin, hblob', hfreq, hsort, hseq, hpath, htmp,
    hfault.trans hf, hcause⟩

end Sys2Proof
end

section
/-! SUPPORT. What a written varint is read back as (spec/42_hef_codec.md R176), and what a command that does not end
OK leaves of the buffers it writes (R157, R184, R193): O46 and O20. -/

namespace Sys2Proof

open Machine

namespace Machine

/-- The tag that the writer chooses (R90, R176). -/
theorem head?_varint {v : Nat} {l : List Byte} (h : varint v = .ok l) :
    l.head? = some (if v ≤ 255 then 0x00 else if v ≤ 65535 then 0x01 else if v ≤ 4294967295 then 0x02 else 0x03) := by
  rw [varint] at h
  split_ifs at h ⊢
  all_goals
    cases h
    rfl

/-- What the writer put down is read back, wherever it stands (R174, R176). -/
theorem readVarint_of_varint {v : Nat} {l : List Byte} (h : varint v = .ok l) (before after : List Byte) :
    readVarint (before ++ l ++ after) before.length = .ok (v, before.length + l.length) := by
  obtain ⟨i, hi, rfl, hv⟩ := varint_eq_encode h
  have hdrop : (before ++ encode i ++ after).drop before.length = encode i ++ after := by
    rw [List.append_assoc, List.drop_left]
  rw [readVarint_of_decode (hdrop ▸ decodeVarint_eq_ok.2 ⟨hi, rfl⟩), hv]

/-- A piece of state that no refusal and no raise writes, and that R229 does not leave unspecified, is as it was
after a command that does not end OK. -/
theorem exec_keeps_of_not_ok {α : Type} {i : Instr} {s t : State} (piece : State → α)
    (hrefuse : piece s.refuse = piece s) (hraise : ∀ u r, piece (State.raise u r) = piece u)
    (hunspecified : piece (i.unspecified s) = piece s) (hexec : exec i s = .next t) (hstatus : t.status ≠ .ok) :
    piece t = piece s := by
  obtain ⟨-, rfl⟩ | ⟨-, -, rfl⟩ | ⟨-, -, u, l, -, rfl⟩ | ⟨-, -, r, -, rfl⟩ := exec_cases hexec
  · exact hrefuse
  · exact hraise s _
  · exact absurd rfl hstatus
  · exact (hraise _ r).trans hunspecified

section Buffers

variable {i : Instr} {s t : State} (hexec : exec i s = .next t) (hstatus : t.status ≠ .ok)
include hexec hstatus

theorem exec_blob_of_not_ok (h : (i.unspecified s).blob = s.blob) : t.blob = s.blob ∧ t.csr 0x05 = s.csr 0x05 := by
  have hblob := exec_keeps_of_not_ok State.blob s.refuse_blob State.raise_blob h hexec hstatus
  exact ⟨hblob, congrArg (fun b => some (List.length b)) hblob⟩

theorem exec_outBuf_of_not_ok (h : (i.unspecified s).outBuf = s.outBuf) :
    t.outBuf = s.outBuf ∧ t.csr 0x04 = s.csr 0x04 := by
  have hout := exec_keeps_of_not_ok State.outBuf s.refuse_outBuf State.raise_outBuf h hexec hstatus
  exact ⟨hout, congrArg (fun b => some (List.length b)) hout⟩

end Buffers

end Machine

/-- Settles O46: the writer's bytes are one encoded varint, which the reader decodes. -/
theorem varintRoundTrip : Obligations.VarintRoundTrip := by
  unfold Obligations.VarintRoundTrip
  refine fun v => ⟨fun hv => ?_, varint_of_ge⟩
  obtain ⟨l, hl⟩ := varint_of_lt hv
  exact ⟨l, hl, head?_varint hl, readVarint_of_varint hl⟩

/-- R229 leaves BLOB after a raise of ENCODE (R190). -/
theorem Machine.State.afterEncode_blob (s : State) : s.afterEncode.blob = s.blob := by
  simp only [State.afterEncode, State.drawn_blob, State.drawCodes_blob, State.drawTa_blob, State.drawData_blob,
    State.drawPath_blob, State.drawTable_blob, State.drawArena_blob, State.drawSort_blob, State.drawFreq_blob]

/-- R229 leaves OUT after a raise of DECODE (R193). -/
theorem Machine.State.afterDecode_outBuf (s : State) : s.afterDecode.outBuf = s.outBuf := by
  simp only [State.afterDecode, State.drawn_outBuf, State.drawArena_outBuf, State.drawTable_outBuf,
    State.drawData_outBuf, State.drawCodes_outBuf, State.drawTa_outBuf, State.drawCur_outBuf]

/-- Settles O20: the draws of R229 leave BLOB and OUT. -/
theorem outputsAreNeverPartlyWritten : Obligations.OutputsAreNeverPartlyWritten := by
  unfold Obligations.OutputsAreNeverPartlyWritten
  intro s t hstatus
  exact ⟨fun h => exec_blob_of_not_ok h hstatus rfl, fun h => exec_blob_of_not_ok h hstatus s.afterEncode_blob,
    fun h => exec_outBuf_of_not_ok h hstatus rfl, fun h => exec_outBuf_of_not_ok h hstatus s.afterDecode_outBuf⟩

end Sys2Proof
end

section
/-! SUPPORT. DATA.ENCODE (spec/42_hef_codec.md R178 to R180): the loop's first failing symbol decides. O50 and O51
follow. -/

namespace Sys2Proof

open Machine Claims

namespace Machine

section Symbol

variable {s : State} {data : BitSeq} {y : Byte}

/-- A symbol that is no key (R178). -/
theorem encodeSymbol_noCode (hy : s.validOf y = false) :
    encodeSymbol s data y = .error (.raise (.fault .noCode)) := by
  rw [encodeSymbol, hy, ensure_false, error_bind]

/-- A key whose code passes BS_CAP (R112, R178). -/
theorem encodeSymbol_capacity (hy : s.validOf y = true)
    (hcap : capAllows s.caps.bsCap (data.size + (symbolBits s y).length) = false) :
    encodeSymbol s data y = .error (.raise (.call .capacity)) := by
  rw [encodeSymbol, hy, ensure_true, ok_bind]
  unfold symbolBits at hcap
  split_ifs at hcap ⊢ with hempty
  · exact if_neg (Bool.eq_false_iff.1 hcap)
  · rw [BitSeq.length_bits] at hcap
    exact if_neg (Bool.eq_false_iff.1 hcap)

/-- With BS_CAP unbounded a key is never too much (R9, R178). -/
theorem encodeSymbol_of_unbounded (hbs : s.caps.bsCap = none) (hy : s.validOf y = true) :
    ∃ data', encodeSymbol s data y = .ok data' := by
  have hcap (n : Nat) : capAllows s.caps.bsCap n = true := by
    rw [hbs]
    rfl
  rw [encodeSymbol, hy, ensure_true, ok_bind]
  split_ifs
  · exact ⟨_, if_pos (hcap _)⟩
  · exact ⟨_, if_pos (hcap _)⟩

end Symbol

variable {s : State}

/-- With BS_CAP unbounded nothing but a symbol that is no key stops the loop of R178. -/
theorem encodeSymbols_noCode_of_unbounded (hbs : s.caps.bsCap = none) {l : List Byte}
    (hl : ∃ y ∈ l, s.validOf y = false) (data : BitSeq) :
    l.foldlM (encodeSymbol s) data = .error (.raise (.fault .noCode)) := by
  induction l generalizing data with
  | nil =>
    obtain ⟨y, hy, -⟩ := hl
    cases hy
  | cons z l ih =>
    rw [List.foldlM_cons]
    cases hz : s.validOf z with
    | false => rw [encodeSymbol_noCode hz, error_bind]
    | true =>
      obtain ⟨data', hdata'⟩ := encodeSymbol_of_unbounded (data := data) hbs hz
      have hrest : ∃ y ∈ l, s.validOf y = false := by simpa [hz] using hl
      rw [hdata', ok_bind, ih hrest]

theorem dataEncodeStage_error {h : Halt} (hloop : s.inBuf.foldlM (encodeSymbol s) .empty = .error h) :
    dataEncodeStage s = .error h := by
  rw [dataEncodeStage, hloop, error_bind]

/-- The first symbol that fails decides, whatever follows it (R178). -/
theorem dataEncodeStage_stops {before after : List Byte} {y : Byte} {h : Halt} (hs : ∀ z, (s.codeOf z).Wf)
    (hin : s.inBuf = before ++ y :: after) (hkeys : ∀ z ∈ before, s.validOf z = true)
    (hcap : capAllows s.caps.bsCap (before.flatMap (symbolBits s)).length = true)
    (hy : encodeSymbol s (.ofBits (before.flatMap (symbolBits s))) y = .error h) :
    dataEncodeStage s = .error h := by
  have hbefore : before.foldlM (encodeSymbol s) .empty = .ok (.ofBits (before.flatMap (symbolBits s))) :=
    encodeSymbols_ok hs before hkeys (BitSeq.fits_empty s.caps).1 hcap
  refine dataEncodeStage_error ?_
  rw [hin, List.foldlM_append, hbefore, ok_bind, List.foldlM_cons, hy, error_bind]

section Command

variable (hf : s.fault = false)
include hf

/-- On F_NO_CODE only DATA and the flags may differ (R225, R229). -/
theorem exec_dataEncode_noCode (h : dataEncodeStage s = .error (.raise (.fault .noCode))) :
    ∃ t, exec .dataEncode s = .next t ∧ t = { faultAfter s .noCode 0x18 with data := t.data, draws := t.draws } := by
  refine ⟨_, exec_stage_raise (i := .dataEncode) rfl hf rfl h, ?_⟩
  have hfault : (Instr.unspecified .dataEncode s).fault = false := hf
  rw [State.raise_fault_of_unlatched hfault]
  rfl

/-- On E_CAPACITY only DATA and STATUS may differ (R224, R229). -/
theorem exec_dataEncode_capacity (h : dataEncodeStage s = .error (.raise (.call .capacity))) :
    ∃ t, exec .dataEncode s = .next t ∧
      t = { callErrorAfter s .capacity 0x05 with data := t.data, draws := t.draws } :=
  ⟨_, exec_stage_raise (i := .dataEncode) rfl hf rfl h, rfl⟩

end Command

end Machine

/-- Settles O50: the loop appends what each symbol stands for. -/
theorem dataEncodeConcatenatesTheCodes : Obligations.DataEncodeConcatenatesTheCodes := by
  unfold Obligations.DataEncodeConcatenatesTheCodes
  intro s hf hregs hkeys hcap
  exact exec_stage_ok (i := .dataEncode) rfl hf rfl (dataEncodeStage_ok hregs.codeOf hkeys hcap)

/-- Settles O51: up to the first symbol that fails the loop answers, and that symbol's raise ends it. -/
theorem dataEncodeNeedsEveryCode : Obligations.DataEncodeNeedsEveryCode := by
  unfold Obligations.DataEncodeNeedsEveryCode
  refine fun s hf => ⟨fun hbs hnone => ?_, fun before after y hregs hin hkeys hcap =>
    ⟨fun hy => ?_, fun hy hlong => ?_⟩⟩
  · exact exec_dataEncode_noCode hf (dataEncodeStage_error (encodeSymbols_noCode_of_unbounded hbs hnone .empty))
  · exact exec_dataEncode_noCode hf (dataEncodeStage_stops hregs.codeOf hin hkeys hcap (encodeSymbol_noCode hy))
  · refine exec_dataEncode_capacity hf (dataEncodeStage_stops hregs.codeOf hin hkeys hcap (encodeSymbol_capacity hy ?_))
    simpa using hlong

end Sys2Proof
end

section
/-! SUPPORT. TABLE.LOAD on any tree arrays (spec/42_hef_codec.md R188, R189): up to the first entry that fails the loop
writes the codes it cuts out of CODES. O55 follows. -/

namespace Sys2Proof

open Machine

/-! ### Codes cut out of CODES -/

/-- How many bits of CODES a list of entries takes (R188). -/
abbrev entriesLength (l : List (Byte × Byte)) : Nat := (l.map fun e => e.2.toNat).sum

theorem entriesLength_cons (e : Byte × Byte) (l : List (Byte × Byte)) :
    entriesLength (e :: l) = e.2.toNat + entriesLength l := List.sum_cons

/-- The code of each entry, cut out of `bits` from position `off` on (R188). -/
def cutCodes (bits : List Bool) : Nat → List (Byte × Byte) → List (Byte × List Bool)
  | _, [] => []
  | off, e :: rest => (e.1, (bits.drop off).take e.2.toNat) :: cutCodes bits (off + e.2.toNat) rest

section Cut

variable (bits : List Bool) (off : Nat) (l : List (Byte × Byte))

theorem keys_cutCodes : (cutCodes bits off l).map Prod.fst = l.map Prod.fst := by
  induction l generalizing off with
  | nil => rfl
  | cons e l ih => rw [cutCodes, List.map_cons, List.map_cons, ih]

theorem cutCodes_append (l' : List (Byte × Byte)) :
    cutCodes bits off (l ++ l') = cutCodes bits off l ++ cutCodes bits (off + entriesLength l) l' := by
  induction l generalizing off with
  | nil => rfl
  | cons e l ih =>
    rw [List.cons_append, cutCodes, ih, cutCodes, List.cons_append, entriesLength_cons, Nat.add_assoc]

/-- The code of entry `i` follows those of the entries before it. -/
theorem mem_cutCodes {i : Nat} {e : Byte × Byte} (h : l[i]? = some e) :
    (e.1, (bits.drop (off + entriesLength (l.take i))).take e.2.toNat) ∈ cutCodes bits off l := by
  obtain ⟨hi, he⟩ := List.getElem?_eq_some_iff.1 h
  have hsplit : l = l.take i ++ e :: l.drop (i + 1) := by
    rw [← he, ← List.drop_eq_getElem_cons hi, List.take_append_drop]
  rw [hsplit, cutCodes_append, ← hsplit, cutCodes]
  exact List.mem_append_right _ List.mem_cons_self

end Cut

namespace Machine

/-- The bits that the loop of R188 reads, one by one. -/
theorem BitSeq.range_map_at {v : BitSeq} {off n : Nat} (h : off + n ≤ v.size) :
    ((List.range n).map fun j => v.at (off + j)) = (v.bits.drop off).take n := by
  refine List.ext_getElem? fun j => ?_
  rw [List.getElem?_map, List.getElem?_take, List.getElem?_drop]
  split_ifs with hj
  · rw [List.getElem?_range hj, Option.map_some, BitSeq.getElem?_bits v (by omega)]
  · rw [List.getElem?_eq_none (by simpa using hj), Option.map_none]

/-! ### The loop -/

section Loop

variable {codes : BitSeq} {off : Nat} {y len : Byte} {rest : List (Byte × Byte)} {s : State}

/-- An entry whose symbol is a key already (R188). -/
theorem loadEntries_dupSymbol (hy : s.validOf y = true) :
    loadEntries codes off ((y, len) :: rest) s = .error (.raise (.fault .dupSymbol)) := by
  rw [loadEntries, hy, Bool.not_true, ensure_false, error_bind]

/-- An entry for which CODES is too short (R188). -/
theorem loadEntries_index (hy : s.validOf y = false) (hlen : codes.size < off + len.toNat) :
    loadEntries codes off ((y, len) :: rest) s = .error (.raise (.fault .index)) := by
  rw [loadEntries, hy, Bool.not_false, ensure_true, ok_bind, ensure_bind_of_not (Nat.not_le.2 hlen)]

/-- An entry that is loaded (R188). -/
theorem loadEntries_cons (hy : s.validOf y = false) (hlen : off + len.toNat ≤ codes.size) :
    loadEntries codes off ((y, len) :: rest) s =
      loadEntries codes (off + len.toNat) rest (s.setCode y (.ofBits ((codes.bits.drop off).take len.toNat))) := by
  rw [loadEntries, hy, Bool.not_false, ensure_true, ok_bind, ensure_bind_of hlen, BitSeq.range_map_at hlen]

/-- Entries of different symbols, none of them a key, for which CODES is long enough, whatever follows them. -/
theorem loadEntries_append (l : List (Byte × Byte)) (hkeys : (l.map Prod.fst).Nodup)
    (hfree : ∀ e ∈ l, s.validOf e.1 = false) (hlen : off + entriesLength l ≤ codes.size) :
    loadEntries codes off (l ++ rest) s =
      loadEntries codes (off + entriesLength l) rest (s.setCodes (cutCodes codes.bits off l)) := by
  induction l generalizing off s with
  | nil => rfl
  | cons e l ih =>
    rw [List.map_cons, List.nodup_cons] at hkeys
    obtain ⟨hnew, hkeys⟩ := hkeys
    obtain ⟨hvalid, hfree⟩ := List.forall_mem_cons.1 hfree
    rw [entriesLength_cons, ← Nat.add_assoc] at hlen ⊢
    have hfree' : ∀ e' ∈ l, (s.setCode e.1 (.ofBits ((codes.bits.drop off).take e.2.toNat))).validOf e'.1 = false :=
      fun e' he' => (State.validOf_setCode_ne s e.1 e'.1 _ fun h => hnew (h ▸ List.mem_map_of_mem he')).trans
        (hfree e' he')
    rw [List.cons_append, loadEntries_cons hvalid (by omega), ih hkeys hfree' hlen, cutCodes, State.setCodes_cons]

end Loop

/-- TABLE.LOAD past the entries that can be loaded (R188). -/
theorem tableLoadStage_append {s : State} {before rest : List (Byte × Byte)} (hta : s.taEntries = before ++ rest)
    (hkeys : (before.map Prod.fst).Nodup) (hlen : entriesLength before ≤ s.codes.size) :
    tableLoadStage s = loadEntries s.codes (entriesLength before) rest
      (s.clearTable.setCodes (cutCodes s.codes.bits 0 before)) := by
  have hloop := loadEntries_append (codes := s.codes) (off := 0) (rest := rest) before hkeys
    (fun e _ => State.validOf_clearTable s e.1) (by omega)
  rw [tableLoadStage, hta, hloop, Nat.zero_add]

/-- The keys of a loaded table. -/
theorem State.validOf_loaded (s : State) (bits : List Bool) (l : List (Byte × Byte)) (y : Byte) :
    (s.clearTable.setCodes (cutCodes bits 0 l)).validOf y = true ↔ y ∈ l.map Prod.fst := by
  rw [State.validOf_setCodes, State.validOf_clearTable, keys_cutCodes]
  simp

end Machine

/-- Settles O55: the loop loads the entries before the first that fails, and that entry's raise ends it. -/
theorem tableLoadCutsCodesIntoTheTable : Obligations.TableLoadCutsCodesIntoTheTable := by
  unfold Obligations.TableLoadCutsCodesIntoTheTable
  refine fun s _ hf => ⟨fun hkeys hlen => ?_, fun before after y len hta hkeys hlen => ?_⟩
  · have hstage := tableLoadStage_append (List.append_nil _).symm hkeys hlen
    have hframe := tableLoadStage_frame hstage
    have hholds := State.holds_setCodes s ((keys_cutCodes s.codes.bits 0 s.taEntries).symm ▸ hkeys)
    refine ⟨_, exec_stage_ok (i := .tableLoad) rfl hf rfl hstage, congrArg (State.finish · []) hframe,
      fun i y len he => ?_, fun y hy => ?_⟩
    · have hmem := mem_cutCodes s.codes.bits 0 s.taEntries he
      rw [Nat.zero_add] at hmem
      exact ⟨hholds.key _ hmem, hholds.code _ hmem⟩
    · rw [← keys_cutCodes s.codes.bits 0] at hy
      exact ⟨hholds.other y hy, (State.codeOf_setCodes_of_not_mem hy).trans (State.codeOf_clearTable s y)⟩
  · have hstage := tableLoadStage_append hta hkeys hlen
    have hvalid := State.validOf_loaded s s.codes.bits before y
    refine ⟨fun hy => ?_, fun hy hshort => ?_⟩
    · exact ⟨_, exec_stage_raise (i := .tableLoad) rfl hf rfl (hstage.trans (loadEntries_dupSymbol (hvalid.2 hy))),
        rfl, rfl⟩
    · have hnew := Bool.eq_false_iff.2 fun h => hy (hvalid.1 h)
      exact ⟨_, exec_stage_raise (i := .tableLoad) rfl hf rfl (hstage.trans (loadEntries_index hnew hshort)), rfl, rfl⟩

end Sys2Proof
end

section
/-! SUPPORT. ENCODE then DECODE (spec/42_hef_codec.md R194): the container that ENCODE writes is one that DECODE reads
back, within finite capacities too. O60 follows. -/

namespace Sys2Proof

open Machine Claims

namespace Machine

/-! ### The table as a list of entries -/

/-- The keys, ascending, each with the bits of its code (R37, R92). -/
def State.entries (s : State) : List (Byte × List Bool) := s.alphabet.map fun y => (y, (s.codeOf y).bits)

section Entries

variable (s : State)

theorem State.keys_entries : s.entries.map Prod.fst = s.alphabet := by
  rw [State.entries, List.map_map]
  exact List.map_id _

theorem State.lens_entries : (s.entries.map fun e => BitVec.ofNat 8 e.2.length) = s.codeLens := by
  rw [State.entries, List.map_map]
  exact List.map_congr_left fun y _ => congrArg (BitVec.ofNat 8) (BitSeq.length_bits _)

theorem State.codes_entries : s.entries.flatMap Prod.snd = s.codeBits s.alphabet := by
  rw [State.entries, List.flatMap_map]
  rfl

/-- An occurrence of a key is written as its entry says (R178, R179). -/
theorem State.entryBits_entries {y : Byte} (hy : s.validOf y = true) : entryBits s.entries y = symbolBits s y := by
  have hmem : (y, (s.codeOf y).bits) ∈ s.entries := List.mem_map_of_mem ((State.mem_alphabet s y).2 hy)
  have hkeys : (s.entries.map Prod.fst).Nodup := s.keys_entries.symm ▸ s.alphabet_nodup
  have hempty : (s.codeOf y).bits = [] ↔ (s.codeOf y).size = 0 := by
    rw [← List.length_eq_zero_iff, BitSeq.length_bits]
  rw [entryBits_eq hkeys hmem, symbolBits]
  simp only [hempty]

variable {s} in
theorem State.length_entries_le (h : s.ShortCodes) : ∀ e ∈ s.entries, e.2.length ≤ 255 := by
  intro e he
  obtain ⟨y, hy, rfl⟩ := List.mem_map.1 he
  exact (BitSeq.length_bits _).trans_le (h y ((State.mem_alphabet s y).1 hy))

variable {s} in
/-- Short codes have their lengths in the container, so these add up to what the codes take (R94, R95). -/
theorem State.sum_codeLens (h : s.ShortCodes) : (s.codeLens.map BitVec.toNat).sum = (s.codeBits s.alphabet).length := by
  rw [State.length_codeBits, State.codeLens, List.map_map]
  refine congrArg List.sum (List.map_congr_left fun y hy => ?_)
  exact Nat.mod_eq_of_lt (Nat.lt_succ_of_le (h y ((State.mem_alphabet s y).1 hy)))

end Entries

/-! ### The container -/

/-- `blob` is the container of a `PrefixFree` table of short codes that holds the symbols of `input`, with their codes
as its data (R17, R92, R178). -/
def ContainerOf (input blob : List Byte) : Prop :=
  ∃ u : State, PrefixFree u ∧ u.ShortCodes ∧ (∀ y ∈ input, u.validOf y = true) ∧
    containerBytes u.alphabet u.codeLens (u.codeBits u.alphabet) (input.flatMap (symbolBits u)) = .ok blob

/-- ENCODE, within the capacities, leaves the container of its input in BLOB (R190). -/
theorem encodeStage_container {s : State} (hin : s.inBuf.length < 2 ^ 59)
    (hbs : capAllows s.caps.bsCap (65280 + 255 * s.inBuf.length) = true)
    (hblob : capAllows s.caps.blobCap (9000 + 32 * s.inBuf.length) = true) :
    ∃ t, encodeStage s = .ok t ∧ ContainerOf s.inBuf t.blob := by
  obtain ⟨u, buf, hkeys, hfree, hshort, hbuf, hstage⟩ := encodeStage_ok hin hbs hblob
  exact ⟨_, hstage, u, hfree, hshort, fun y => (hkeys y).2, hbuf⟩

/-- DECODE, within the capacities, appends what such a container holds (R192, R193). -/
theorem decodeStage_of_containerOf {s : State} {input : List Byte} (h : ContainerOf input s.blob)
    (hf : s.fault = false) (hbs : capAllows s.caps.bsCap (65280 + 255 * input.length) = true)
    (hout : capAllows s.caps.outCap (s.outBuf.length + input.length) = true) :
    ∃ t, decodeStage s = .ok t ∧ t.outBuf = s.outBuf ++ input := by
  obtain ⟨u, hfree, hshort, hkeys, hbuf⟩ := h
  have hcodes := length_codeBits_le hshort
  have hdata : (input.flatMap (symbolBits u)).length ≤ 255 * input.length :=
    length_symbolBits_le (s := { u with inBuf := input }) hshort hkeys
  have hdes := hefDeserializeStage_of_container (tail := []) hf hbuf (List.append_nil _).symm (List.length_map _)
    u.alphabet_length_le (State.sum_codeLens hshort) (capAllows_mono (by omega) hbs) (capAllows_mono (by omega) hbs)
  have hbits : input.flatMap (symbolBits u) = input.flatMap (entryBits u.entries) :=
    List.flatMap_congr fun y hy => (u.entryBits_entries (hkeys y hy)).symm
  rw [hbits, ← u.codes_entries, ← u.keys_entries, ← u.lens_entries] at hdes
  have hcount : u.entries.length ≤ 256 := (List.length_map _).trans_le u.alphabet_length_le
  obtain ⟨t, hstage, -, hout, -⟩ := decodeStage_of_deserialized hdes
    (State.taEntries_of hcount (List.length_map _) rfl rfl) rfl rfl hout (State.length_entries_le hshort)
    (List.pairwise_map.2 (State.alphabet_apart hfree)) (u.keys_entries.symm ▸ u.alphabet_nodup)
    fun y hy => u.keys_entries.symm ▸ (State.mem_alphabet u y).2 (hkeys y hy)
  exact ⟨t, hstage, hout⟩

/-! ### A load and a command -/

theorem run_succ {M : Host.Core} {s t : M.State} (h : M.step s = .next t) (k : Nat) : M.run (k + 1) s = M.run k t := by
  rw [Host.Core.run, h]

/-- Two steps that serve a load and a command whose stage reaches its end (R47, R84, R227, log 1). -/
theorem run_load_command {i : Instr} {stage : State → Res State} {s s₁ t : State} {p : List Byte}
    {rest : List Request} (hload : step s = .next s₁) (hp : s₁.pending = .command p :: rest)
    (hdecode : decodeCommand p = .ok i) (hrule : i.rule = withoutResult stage) (hi : i.WellFormed)
    (hf : s₁.fault = false) (h : stage { s₁ with pending := rest } = .ok t) (k : Nat) :
    Host.Core.run core (k + 2) s = Host.Core.run core k (t.finish []) := by
  have hcommand : step s₁ = .next (t.finish []) := by
    rw [step_of_pending hp, serve_command_of_decode hdecode]
    exact exec_stage_ok (s := { s₁ with pending := rest }) hrule hf hi h
  exact (run_succ (M := core) hload (k + 1)).trans (run_succ (M := core) hcommand k)

end Machine

/-- Settles O60: ENCODE leaves a container of the input in BLOB, and DECODE finds it there. -/
theorem encodeThenDecodeGivesTheInputBack : Obligations.EncodeThenDecodeGivesTheInputBack := by
  unfold Obligations.EncodeThenDecodeGivesTheInputBack
  intro s input out hf hin hinCap houtCap hbs hblob hp
  obtain ⟨hloadIn, -⟩ := hostInteractionsTouchOnlyTheirBuffer s _ input
  obtain ⟨m, hencode, hcontainer⟩ := encodeStage_container
    (s := { s with pending := [.loadOut out, .command [0x43]], inBuf := input, response := [] }) hin hbs hblob
  have hm := Writes.rule (i := .encodeInput) (withoutResult_eq_ok.2 ⟨hencode, rfl⟩)
  have hrun := run_load_command (i := .encodeInput) (hloadIn hp hinCap) rfl rfl rfl rfl hf hencode
  obtain ⟨-, hloadOut, -⟩ := hostInteractionsTouchOnlyTheirBuffer (m.finish []) _ out
  obtain ⟨t, hdecode, hout⟩ := decodeStage_of_containerOf
    (s := { m.finish [] with pending := [], outBuf := out, response := [] }) hcontainer (hm.fault.trans hf)
    (hm.caps.symm ▸ hbs) (hm.caps.symm ▸ houtCap)
  have ht := Writes.rule (i := .decodeBlob) (withoutResult_eq_ok.2 ⟨hdecode, rfl⟩)
  have hrun' := run_load_command (i := .decodeBlob) (hloadOut hm.pending (hm.caps.symm ▸ capAllows_mono
    (Nat.le_add_right _ _) houtCap)) rfl rfl rfl rfl (hm.fault.trans hf) hdecode
  exact ⟨_, _, hrun 0, rfl, (hrun 2).trans (hrun' 0), rfl, ht.fault.trans (hm.fault.trans hf), hout⟩

end Sys2Proof
end

section
/-! SUPPORT. What each stage reads: from two states that agree on it a stage ends alike, whatever else they hold. So a
composite depends on its input alone, and the status and response of a command between two stages go unnoticed
(spec/42_hef_codec.md R190 to R193). -/

namespace Sys2Proof

open Machine Claims

namespace Machine

/-! ### Bound computations that end alike -/

section Bind

variable {α β γ : Type}

theorem res_map_bind (x : Res α) (f : α → Res β) (g : β → γ) : (x >>= f).map g = x >>= fun a => (f a).map g := by
  cases x <;> rfl

theorem res_map_congr {x : Res α} {f g : α → β} (h : ∀ a, x = .ok a → f a = g a) : x.map f = x.map g := by
  cases x with
  | error e => rfl
  | ok a => exact congrArg Except.ok (h a rfl)

/-- Two computations whose parts end alike. -/
theorem res_bind_eq_map_bind {x y : Res α} {φ : α → α} {f g : α → Res β} {ψ : β → β} (hx : y = x.map φ)
    (hf : ∀ a, x = .ok a → g (φ a) = (f a).map ψ) : y >>= g = (x >>= f).map ψ := by
  subst hx
  cases x with
  | error e => rfl
  | ok a => exact hf a rfl

end Bind

variable {s t : State}

theorem State.codeOf_congr (hcode : t.code = s.code) : t.codeOf = s.codeOf := by
  funext y
  rw [State.codeOf, State.codeOf, hcode]

theorem State.validOf_congr (hvalid : t.codeValid = s.codeValid) : t.validOf = s.validOf := by
  funext y
  rw [State.validOf, State.validOf, hvalid]

theorem State.alphabet_congr (hvalid : t.codeValid = s.codeValid) : t.alphabet = s.alphabet := by
  rw [State.alphabet, State.alphabet, hvalid]

/-! ### The stages of DECODE -/

/-- HEF.DESERIALIZE reads BLOB (R185). -/
theorem hefDeserializeStage_congr (hcaps : t.caps = s.caps) (hblob : t.blob = s.blob) :
    hefDeserializeStage t = (hefDeserializeStage s).map fun r =>
      { t with cur := r.cur, taN := r.taN, taSym := r.taSym, taLen := r.taLen, codes := r.codes, data := r.data } := by
  simp only [hefDeserializeStage, hcaps, hblob, res_map_bind]
  rfl

theorem loadEntries_congr (codes : BitSeq) (l : List (Byte × Byte)) {off : Nat} (hcode : t.code = s.code)
    (hvalid : t.codeValid = s.codeValid) :
    loadEntries codes off l t =
      (loadEntries codes off l s).map fun r => { t with code := r.code, codeValid := r.codeValid } := by
  induction l generalizing off s t with
  | nil => simp only [loadEntries, Except.map, ← hcode, ← hvalid]
  | cons e l ih =>
    have hrest (v : BitSeq) := ih (off := off + e.2.toNat) (s := s.setCode e.1 v) (t := t.setCode e.1 v)
      (by rw [State.setCode_code, State.setCode_code, hcode])
      (by rw [State.setCode_codeValid, State.setCode_codeValid, hvalid])
    simp only [loadEntries, res_map_bind, State.validOf_congr hvalid, hrest]
    rfl

/-- TABLE.LOAD reads CODES and the tree arrays (R188). -/
theorem tableLoadStage_congr (hcodes : t.codes = s.codes) (hn : t.taN = s.taN) (hsym : t.taSym = s.taSym)
    (hlen : t.taLen = s.taLen) :
    tableLoadStage t = (tableLoadStage s).map fun r => { t with code := r.code, codeValid := r.codeValid } := by
  have hta : t.taEntries = s.taEntries := by rw [State.taEntries, State.taEntries, hn, hsym, hlen]
  have hstart : tableLoadStage t = loadEntries s.codes 0 s.taEntries t.clearTable := by
    rw [tableLoadStage, hcodes, hta]
  exact hstart.trans (loadEntries_congr _ _ rfl rfl)

theorem treeInsertStage_congr (y : Byte) (code : BitSeq) (harena : t.arena = s.arena) :
    treeInsertStage y code t = (treeInsertStage y code s).map fun r => { t with arena := r.arena } := by
  simp only [treeInsertStage, res_map_bind, harena]
  rfl

theorem insertEntries_congr (c : Byte → BitSeq) (l : List Byte) (harena : t.arena = s.arena) :
    insertEntries c l t = (insertEntries c l s).map fun r => { t with arena := r.arena } := by
  induction l generalizing s t with
  | nil =>
    change Except.ok t = Except.ok { t with arena := s.arena }
    rw [← harena]
  | cons y l ih =>
    rw [insertEntries_cons, insertEntries_cons]
    exact res_bind_eq_map_bind (treeInsertStage_congr y (c y) harena) fun a _ => ih rfl

/-- TREE.FROM_TABLE reads the code table (R155). -/
theorem treeFromTableStage_congr (hcode : t.code = s.code) (hvalid : t.codeValid = s.codeValid) :
    treeFromTableStage t = (treeFromTableStage s).map fun r => { t with arena := r.arena } := by
  have hstage (u : State) : treeFromTableStage u = insertEntries u.codeOf u.alphabet { u with arena := bareRoot } := rfl
  rw [hstage, hstage, State.codeOf_congr hcode, State.alphabet_congr hvalid]
  exact insertEntries_congr _ _ rfl

/-- TREE.DECODE reads the tree, DATA and OUT (R157). -/
theorem treeDecodeStage_congr (hcaps : t.caps = s.caps) (harena : t.arena = s.arena) (hdata : t.data = s.data)
    (hout : t.outBuf = s.outBuf) :
    treeDecodeStage t = (treeDecodeStage s).map fun r => { t with outBuf := r.outBuf } := by
  simp only [treeDecodeStage, res_map_bind, hcaps, harena, hdata, hout]
  rfl

/-- DECODE reads BLOB and OUT (R192, R193). -/
theorem decodeStage_congr (hcaps : t.caps = s.caps) (hblob : t.blob = s.blob) (hout : t.outBuf = s.outBuf) :
    decodeStage t = (decodeStage s).map fun r =>
      { t with
        cur := r.cur, taN := r.taN, taSym := r.taSym, taLen := r.taLen, codes := r.codes, data := r.data,
        code := r.code, codeValid := r.codeValid, arena := r.arena, outBuf := r.outBuf } := by
  refine res_bind_eq_map_bind (hefDeserializeStage_congr hcaps hblob) fun a ha => ?_
  refine res_bind_eq_map_bind (tableLoadStage_congr rfl rfl rfl rfl) fun b hb => ?_
  refine res_bind_eq_map_bind (treeFromTableStage_congr rfl rfl) fun c hc => ?_
  have hb' := tableLoadStage_frame hb
  have hc' : c = { a with code := b.code, codeValid := b.codeValid, arena := c.arena } := by
    rw [treeFromTableStage_frame hc, hb']
  have hcaps' : t.caps = c.caps := by rw [hc', hefDeserializeStage_frame ha, hcaps]
  have hout' : t.outBuf = c.outBuf := by rw [hc', hefDeserializeStage_frame ha, hout]
  have hdata' : a.data = c.data := by rw [hc']
  refine Eq.trans (treeDecodeStage_congr (s := c) hcaps' rfl hdata' hout') (res_map_congr fun d hd => ?_)
  obtain ⟨out, -, rfl⟩ := treeDecodeStage_frame hd
  rw [hc']

/-! ### The stages of ENCODE -/

/-- FREQ.COUNT reads IN (R140). -/
theorem freqCountStage_congr (hin : t.inBuf = s.inBuf) :
    freqCountStage t = (freqCountStage s).map fun r => { t with freq := r.freq } := by
  rw [freqCountStage_eq, freqCountStage_eq, hin]
  rfl

/-- TREE.BUILD reads FREQ (R146). -/
theorem treeBuildStage_congr (hfreq : t.freq = s.freq) :
    treeBuildStage t = (treeBuildStage s).map fun r => { t with arena := r.arena, sort := r.sort, seq := r.seq } := by
  rw [treeBuildStage_eq, treeBuildStage_eq, hfreq]
  rfl

/-- `s` and `t` agree on what the walk of R150 reads: BS_CAP, the code table and PATH. -/
structure WalkAgrees (s t : State) : Prop where
  caps : t.caps = s.caps
  code : t.code = s.code
  codeValid : t.codeValid = s.codeValid
  path : t.path = s.path

/-- `t` with the code table and PATH of `r`. -/
def State.withTableOf (t r : State) : State := { t with code := r.code, codeValid := r.codeValid, path := r.path }

theorem WalkAgrees.withTableOf (h : WalkAgrees s t) : t.withTableOf s = t := by
  rw [State.withTableOf, ← h.code, ← h.codeValid, ← h.path]

theorem visitChild_congr {walk : Nat → State → Res State}
    (hwalk : ∀ (c : Nat) {s t : State}, WalkAgrees s t → walk c t = (walk c s).map t.withTableOf)
    (b : Bool) (c : Option Nat) (h : WalkAgrees s t) :
    visitChild walk b c t = (visitChild walk b c s).map t.withTableOf := by
  cases c with
  | none => exact congrArg Except.ok h.withTableOf.symm
  | some c =>
    have hpush : pushBitCap t.caps t.path b = pushBitCap s.caps s.path b := by rw [h.caps, h.path]
    have hrest (p : BitSeq) : walk c { t with path := p } = (walk c { s with path := p }).map t.withTableOf :=
      hwalk c ⟨h.caps, h.code, h.codeValid, rfl⟩
    rw [visitChild, visitChild, hpush, res_map_bind]
    exact congrArg _ (funext fun p => res_bind_eq_map_bind (hrest p) fun a _ => rfl)

theorem deriveWalk_congr (nodes : List Node) (fuel i : Nat) (h : WalkAgrees s t) :
    deriveWalk nodes fuel i t = (deriveWalk nodes fuel i s).map t.withTableOf := by
  induction fuel generalizing i s t with
  | zero => rfl
  | succ fuel ih =>
    rw [deriveWalk, deriveWalk]
    cases nodes[i]? with
    | none => rfl
    | some n =>
      cases n with
      | leaf y f => simp only [Except.map, State.setCode, State.withTableOf, h.code, h.codeValid, h.path]
      | internal l r f =>
        refine res_bind_eq_map_bind (visitChild_congr (fun c {s t} => ih c) false l h) fun a ha => ?_
        have hcaps : t.caps = a.caps := by rw [visitChild_frame (deriveWalk_frame nodes fuel) ha, h.caps]
        exact visitChild_congr (fun c {s t} => ih c) true r (t := t.withTableOf a) ⟨hcaps, rfl, rfl, rfl⟩

theorem tableDeriveStage_of_noRoot (h : s.arena.root = none) :
    tableDeriveStage s = .ok { s.clearTable with path := .empty } := by
  simp only [tableDeriveStage, State.clearTable_arena, h]

theorem tableDeriveStage_of_root {root : Nat} (h : s.arena.root = some root) :
    tableDeriveStage s =
      deriveWalk s.arena.nodes s.arena.nodes.length root { s.clearTable with path := .empty } := by
  simp only [tableDeriveStage, State.clearTable_arena, h]

/-- TABLE.DERIVE reads the tree (R150). -/
theorem tableDeriveStage_congr (hcaps : t.caps = s.caps) (harena : t.arena = s.arena) :
    tableDeriveStage t = (tableDeriveStage s).map t.withTableOf := by
  cases hroot : s.arena.root with
  | none =>
    rw [tableDeriveStage_of_noRoot hroot, tableDeriveStage_of_noRoot (harena ▸ hroot)]
    rfl
  | some root =>
    rw [tableDeriveStage_of_root hroot, tableDeriveStage_of_root (harena ▸ hroot), harena]
    exact deriveWalk_congr _ _ _ ⟨hcaps, rfl, rfl, rfl⟩

theorem encodeSymbol_congr (hcaps : t.caps = s.caps) (hcode : t.code = s.code) (hvalid : t.codeValid = s.codeValid) :
    encodeSymbol t = encodeSymbol s := by
  funext data y
  rw [encodeSymbol, encodeSymbol, hcaps, State.codeOf_congr hcode, State.validOf_congr hvalid]

/-- DATA.ENCODE reads IN and the code table (R178). -/
theorem dataEncodeStage_congr (hcaps : t.caps = s.caps) (hin : t.inBuf = s.inBuf) (hcode : t.code = s.code)
    (hvalid : t.codeValid = s.codeValid) :
    dataEncodeStage t = (dataEncodeStage s).map fun r => { t with data := r.data } := by
  rw [dataEncodeStage, dataEncodeStage, res_map_bind, encodeSymbol_congr hcaps hcode hvalid, hin]
  rfl

/-- HEF.SERIALIZE reads the code table and DATA (R181). -/
theorem hefSerializeStage_congr (hcaps : t.caps = s.caps) (hcode : t.code = s.code)
    (hvalid : t.codeValid = s.codeValid) (hdata : t.data = s.data) :
    hefSerializeStage t = (hefSerializeStage s).map fun r =>
      { t with taN := r.taN, taSym := r.taSym, taLen := r.taLen, codes := r.codes, blob := r.blob } := by
  simp only [hefSerializeStage, res_map_bind, hcaps, hdata, State.codeOf_congr hcode, State.alphabet_congr hvalid]
  rfl

/-- ENCODE reads IN (R190, R191). -/
theorem encodeStage_congr (hcaps : t.caps = s.caps) (hin : t.inBuf = s.inBuf) :
    encodeStage t = (encodeStage s).map fun r =>
      { t with
        freq := r.freq, sort := r.sort, seq := r.seq, arena := r.arena, code := r.code, codeValid := r.codeValid,
        path := r.path, data := r.data, taN := r.taN, taSym := r.taSym, taLen := r.taLen, codes := r.codes,
        blob := r.blob } := by
  refine res_bind_eq_map_bind (freqCountStage_congr hin) fun a ha => ?_
  refine res_bind_eq_map_bind (treeBuildStage_congr rfl) fun b hb => ?_
  have hb' : b = { s with freq := a.freq, arena := b.arena, sort := b.sort, seq := b.seq } := by
    rw [treeBuildStage_frame hb, freqCountStage_frame ha]
  have hcapsTree : t.caps = b.caps := by rw [hb', hcaps]
  refine res_bind_eq_map_bind (tableDeriveStage_congr (s := b) hcapsTree rfl) fun c hc => ?_
  have hc' := tableDeriveStage_frame hc
  have hcapsTable : t.caps = c.caps := by rw [hc', hcapsTree]
  have hinTable : t.inBuf = c.inBuf := by rw [hc', hb', hin]
  refine res_bind_eq_map_bind (dataEncodeStage_congr (s := c) hcapsTable hinTable rfl rfl) fun d hd => ?_
  have hd' := dataEncodeStage_frame hd
  have hcapsData : t.caps = d.caps := by rw [hd', hcapsTable]
  have hcode : c.code = d.code := by rw [hd']
  have hvalid : c.codeValid = d.codeValid := by rw [hd']
  refine Eq.trans (hefSerializeStage_congr (s := d) hcapsData hcode hvalid rfl) (res_map_congr fun e he => ?_)
  rw [hefSerializeStage_frame he, hd', hc', hb']
  rfl

end Machine

end Sys2Proof
end

section
/-! SUPPORT. A composite command and the run of its stages as commands (spec/42_hef_codec.md R190, R192): O57 and O59
follow. -/

namespace Sys2Proof

open Machine Claims

/-- The status that a raise leaves (R224, R225). -/
def Raise.status : Raise → Status
  | .call e => .callError e
  | .fault f => .fault f

theorem Raise.status_ne_ok (r : Raise) : r.status ≠ .ok := by cases r <;> nofun

namespace Machine

theorem State.raise_status (s : State) (r : Raise) : (s.raise r).status = r.status := by cases r <;> rfl

/-- What a command without result bytes that is not refused ends with (R227). -/
theorem exec_stage_cases {i : Instr} {stage : State → Res State} {s t : State} (hrule : i.rule = withoutResult stage)
    (hi : i.WellFormed) (hf : s.fault = false) (h : exec i s = .next t) :
    (∃ u, stage s = .ok u ∧ t = u.finish []) ∨
      ∃ r, stage s = .error (.raise r) ∧ t = (i.unspecified s).raise r := by
  obtain ⟨hf', -⟩ | ⟨-, hi', -⟩ | ⟨-, -, u, l, hstage, rfl⟩ | ⟨-, -, r, hstage, rfl⟩ := exec_cases h
  · cases hf.symm.trans hf'
  · exact absurd hi hi'
  · rw [hrule, withoutResult_eq_ok] at hstage
    exact .inl ⟨u, hstage.1, by rw [hstage.2]⟩
  · rw [hrule, withoutResult_eq_raise] at hstage
    exact .inr ⟨r, hstage, rfl⟩

/-! ### Stages after a command -/

/-- A stage that the epilogue of a command before it does not change, nor is changed by. -/
def SkipsFinish (stage : State → Res State) : Prop :=
  ∀ s : State, stage (s.finish []) = (stage s).map (State.finish · [])

section Skips

variable {g : State → Res State} (hg : SkipsFinish g) {s t : State}
include hg

theorem SkipsFinish.ok (h : g (s.finish []) = .ok t) : ∃ u, g s = .ok u ∧ t = u.finish [] := by
  rw [hg s] at h
  cases hs : g s with
  | error e => rw [hs] at h; cases h
  | ok u =>
    rw [hs] at h
    cases h
    exact ⟨u, rfl, rfl⟩

theorem SkipsFinish.error {e : Halt} (h : g (s.finish []) = .error e) : g s = .error e := by
  rw [hg s] at h
  cases hs : g s with
  | error e' => rw [hs] at h; cases h; rfl
  | ok u => rw [hs] at h; cases h

end Skips

theorem SkipsFinish.bind {f g : State → Res State} (hf : SkipsFinish f) (hg : SkipsFinish g) :
    SkipsFinish fun s => f s >>= g := fun s => res_bind_eq_map_bind (hf s) fun a _ => hg a

/-- A stage skips the epilogue before it when it reads no flag and keeps the flags. -/
theorem skipsFinish_of_congr {stage : State → Res State} {put : State → State → State}
    (hcongr : ∀ s : State, stage (s.finish []) = (stage s).map (put s))
    (hframe : ∀ s r : State, stage s = .ok r → r.finish [] = put s r) : SkipsFinish stage := fun s =>
  (hcongr s).trans (res_map_congr fun r hr => (hframe s r hr).symm)

theorem skipsFinish_tableLoad : SkipsFinish tableLoadStage :=
  skipsFinish_of_congr (fun s => tableLoadStage_congr (s := s) rfl rfl rfl rfl) fun _ _ h =>
    congrArg (State.finish · []) (tableLoadStage_frame h)

theorem skipsFinish_treeFromTable : SkipsFinish treeFromTableStage :=
  skipsFinish_of_congr (fun s => treeFromTableStage_congr (s := s) rfl rfl) fun _ _ h =>
    congrArg (State.finish · []) (treeFromTableStage_frame h)

theorem skipsFinish_treeDecode : SkipsFinish treeDecodeStage :=
  skipsFinish_of_congr (fun s => treeDecodeStage_congr (s := s) rfl rfl rfl rfl) fun s r h => by
    obtain ⟨out, -, rfl⟩ := treeDecodeStage_frame h
    rfl

theorem skipsFinish_treeBuild : SkipsFinish treeBuildStage :=
  skipsFinish_of_congr (fun s => treeBuildStage_congr (s := s) rfl) fun _ _ h =>
    congrArg (State.finish · []) (treeBuildStage_frame h)

theorem skipsFinish_tableDerive : SkipsFinish tableDeriveStage :=
  skipsFinish_of_congr (fun s => tableDeriveStage_congr (s := s) rfl rfl) fun _ _ h =>
    congrArg (State.finish · []) (tableDeriveStage_frame h)

theorem skipsFinish_dataEncode : SkipsFinish dataEncodeStage :=
  skipsFinish_of_congr (fun s => dataEncodeStage_congr (s := s) rfl rfl rfl rfl) fun _ _ h =>
    congrArg (State.finish · []) (dataEncodeStage_frame h)

theorem skipsFinish_hefSerialize : SkipsFinish hefSerializeStage :=
  skipsFinish_of_congr (fun s => hefSerializeStage_congr (s := s) rfl rfl rfl rfl) fun _ _ h =>
    congrArg (State.finish · []) (hefSerializeStage_frame h)

/-! ### Stages as a run of commands -/

/-- The commands of the list, run one after another, end as the stage `g` does, and the status of the first that does
not end OK is that of `g`'s raise. -/
structure RunsAs (l : List Instr) (g : State → Res State) : Prop where
  ok : ∀ s t, s.fault = false → RunsTo l s t → ∃ u, g s = .ok u ∧ t = u.finish []
  raise : ∀ s e, s.fault = false → FailsWith l s e → ∃ r, g s = .error (.raise r) ∧ e = r.status

section Runs

variable {i : Instr} {f g : State → Res State} {l : List Instr} (hrule : i.rule = withoutResult f) (hi : i.WellFormed)
include hrule hi

theorem exec_stage_status {s t : State} (hf : s.fault = false) (h : exec i s = .next t) :
    (t.status = .ok → ∃ u, f s = .ok u ∧ t = u.finish []) ∧
      (t.status ≠ .ok → ∃ r, f s = .error (.raise r) ∧ t.status = r.status) := by
  obtain ⟨u, hstage, rfl⟩ | ⟨r, hstage, rfl⟩ := exec_stage_cases hrule hi hf h
  · exact ⟨fun _ => ⟨u, hstage, rfl⟩, fun hne => absurd rfl hne⟩
  · have hstatus := State.raise_status (i.unspecified s) r
    exact ⟨fun hok => absurd (hstatus.symm.trans hok) r.status_ne_ok, fun _ => ⟨r, hstage, hstatus⟩⟩

theorem RunsAs.single : RunsAs [i] f where
  ok := by
    rintro s t hf ⟨u, hexec, hok, rfl⟩
    exact (exec_stage_status hrule hi hf hexec).1 hok
  raise := by
    rintro s e hf ⟨u, hexec, ⟨hne, rfl⟩ | ⟨-, hnil⟩⟩
    · exact (exec_stage_status hrule hi hf hexec).2 hne
    · cases hnil

theorem RunsAs.cons (h : RunsAs l g) (hg : SkipsFinish g) : RunsAs (i :: l) fun s => f s >>= g := by
  have hkeep {s v : State} (hf : s.fault = false) (hv : f s = .ok v) : (v.finish []).fault = false := by
    have hresult : i.rule s = .ok (v, []) := hrule ▸ withoutResult_eq_ok.2 ⟨hv, rfl⟩
    exact (Writes.rule hresult).fault.trans hf
  constructor
  case ok =>
    rintro s t hf ⟨u, hexec, hok, hrest⟩
    obtain ⟨v, hv, rfl⟩ := (exec_stage_status hrule hi hf hexec).1 hok
    obtain ⟨w, hw, rfl⟩ := h.ok (v.finish []) t (hkeep hf hv) hrest
    obtain ⟨x, hx, rfl⟩ := hg.ok hw
    exact ⟨x, by rw [hv, ok_bind, hx], rfl⟩
  case raise =>
    rintro s e hf ⟨u, hexec, ⟨hne, rfl⟩ | ⟨hok, hrest⟩⟩
    · obtain ⟨r, hstage, hstatus⟩ := (exec_stage_status hrule hi hf hexec).2 hne
      exact ⟨r, by rw [hstage, error_bind], hstatus⟩
    · obtain ⟨v, hv, rfl⟩ := (exec_stage_status hrule hi hf hexec).1 hok
      obtain ⟨r, hr, hstatus⟩ := h.raise (v.finish []) e (hkeep hf hv) hrest
      exact ⟨r, by rw [hv, ok_bind, hg.error hr], hstatus⟩

theorem RunsAs.composes (h : RunsAs l f) : Composes i l := by
  refine fun s hf => ⟨fun t ht => ?_, fun e he => ?_⟩
  · obtain ⟨u, hstage, rfl⟩ := h.ok s t hf ht
    exact exec_stage_ok hrule hf hi hstage
  · obtain ⟨r, hstage, rfl⟩ := h.raise s e hf he
    exact ⟨_, exec_stage_raise hrule hf hi hstage, State.raise_status _ r⟩

end Runs

theorem runsAs_decodeStages : RunsAs decodeStages decodeStage := by
  have htree := skipsFinish_treeFromTable.bind skipsFinish_treeDecode
  have htable := skipsFinish_tableLoad.bind htree
  have hlast := RunsAs.single (i := .treeDecode) rfl rfl
  have hlast := RunsAs.cons (i := .treeFromTable) rfl rfl hlast skipsFinish_treeDecode
  have hlast := RunsAs.cons (i := .tableLoad) rfl rfl hlast htree
  exact RunsAs.cons (i := .hefDeserialize) rfl rfl hlast htable

theorem runsAs_encodeStages : RunsAs encodeStages encodeStage := by
  have hdata := skipsFinish_dataEncode.bind skipsFinish_hefSerialize
  have htable := skipsFinish_tableDerive.bind hdata
  have htree := skipsFinish_treeBuild.bind htable
  have hlast := RunsAs.single (i := .hefSerialize) rfl rfl
  have hlast := RunsAs.cons (i := .dataEncode) rfl rfl hlast skipsFinish_hefSerialize
  have hlast := RunsAs.cons (i := .tableDerive) rfl rfl hlast hdata
  have hlast := RunsAs.cons (i := .treeBuild) rfl rfl hlast htable
  exact RunsAs.cons (i := .freqCount) rfl rfl hlast htree

/-! ### Nothing but E_CAPACITY -/

theorem pushBitCap_eq_error {caps : Capacities} {v : BitSeq} {b : Bool} {h : Halt}
    (he : pushBitCap caps v b = .error h) : h = .raise (.call .capacity) := by
  rw [pushBitCap] at he
  split_ifs at he
  cases he
  rfl

theorem pushSeqCap_eq_error {caps : Capacities} {v o : BitSeq} {h : Halt}
    (he : pushSeqCap caps v o = .error h) : h = .raise (.call .capacity) := by
  rw [pushSeqCap] at he
  split_ifs at he
  cases he
  rfl

theorem varint_eq_error {v : Nat} {h : Halt} (he : varint v = .error h) : h = .raise (.call .capacity) := by
  rcases Nat.lt_or_ge v (2 ^ 64) with hv | hv
  · obtain ⟨l, hl⟩ := varint_of_lt hv
    cases hl.symm.trans he
  · cases (varint_of_ge hv).symm.trans he
    rfl

/-- A loop that ends early ends so in one of its turns. -/
theorem foldlM_eq_error {α β : Type} {f : β → α → Res β} {l : List α} {b : β} {h : Halt}
    (he : l.foldlM f b = .error h) : ∃ a ∈ l, ∃ b', f b' a = .error h := by
  induction l generalizing b with
  | nil => cases he
  | cons a l ih =>
    rw [List.foldlM_cons, res_bind_error] at he
    obtain he | ⟨b', -, he⟩ := he
    · exact ⟨a, List.mem_cons_self, b, he⟩
    · obtain ⟨a', ha', hf⟩ := ih he
      exact ⟨a', List.mem_cons_of_mem a ha', hf⟩

variable {s : State} {h : Halt}

/-- DATA.ENCODE on an input of keys (R178). -/
theorem dataEncodeStage_eq_error (hkeys : ∀ y ∈ s.inBuf, s.validOf y = true) (he : dataEncodeStage s = .error h) :
    h = .raise (.call .capacity) := by
  obtain he | ⟨_, -, he⟩ := res_bind_error.1 he
  · obtain ⟨y, hy, data, he⟩ := foldlM_eq_error he
    rw [encodeSymbol, hkeys y hy, ensure_true, ok_bind] at he
    split_ifs at he
    · exact pushBitCap_eq_error he
    · exact pushSeqCap_eq_error he
  · cases he

/-- HEF.SERIALIZE (R183). -/
theorem hefSerializeStage_eq_error (he : hefSerializeStage s = .error h) : h = .raise (.call .capacity) := by
  rw [hefSerializeStage_bind] at he
  obtain he | ⟨_, -, he⟩ := res_bind_error.1 he
  · exact (ensure_eq_error.1 he).2
  obtain he | ⟨_, -, he⟩ := res_bind_error.1 he
  · obtain ⟨_, -, _, he⟩ := foldlM_eq_error he
    exact pushSeqCap_eq_error he
  obtain he | ⟨_, -, he⟩ := res_bind_error.1 he
  · obtain he | ⟨_, -, he⟩ := res_bind_error.1 he
    · exact varint_eq_error he
    obtain he | ⟨_, -, he⟩ := res_bind_error.1 he
    · exact varint_eq_error he
    · cases he
  obtain he | ⟨_, -, he⟩ := res_bind_error.1 he
  · exact (ensure_eq_error.1 he).2
  · cases he

/-- ENCODE: the symbols of IN are the keys of its table (R190, R191). -/
theorem encodeStage_eq_error (he : encodeStage s = .error h) : h = .raise (.call .capacity) := by
  have hbuild : treeBuildStage { s with freq := countAll s.inBuf } = .ok s.encodeTree := treeBuildStage_eq _
  rw [encodeStage, freqCountStage_eq, ok_bind, hbuild, ok_bind] at he
  obtain ⟨-, hderive⟩ | ⟨-, hderive⟩ := tableDeriveStage_answers (s := s.encodeTree) (builtArena_wf _)
  · have hin : s.encodeTree.derived.inBuf = s.inBuf := by rw [State.derived_frame]; rfl
    rw [hderive, ok_bind] at he
    obtain he | ⟨_, -, he⟩ := res_bind_error.1 he
    · exact dataEncodeStage_eq_error (fun y hy => (s.validOf_encodeTree y).2 (hin ▸ hy)) he
    · exact hefSerializeStage_eq_error he
  · rw [hderive, error_bind] at he
    cases he
    rfl

end Machine

/-- Settles O57: both cores' ENCODE stages end alike, and the run of the stages ends as ENCODE does. -/
theorem encodeDependsOnItsInputOnly : Obligations.EncodeDependsOnItsInputOnly := by
  unfold Obligations.EncodeDependsOnItsInputOnly
  refine ⟨fun s₁ s₂ t₁ t₂ hf₁ hf₂ hcaps hin h₁ h₂ => ?_, runsAs_encodeStages.composes rfl rfl,
    fun s t hf h hne => ?_⟩
  · have hcongr := encodeStage_congr hcaps.symm hin.symm
    obtain ⟨u, hstage, rfl⟩ | ⟨r, hstage, rfl⟩ := exec_stage_cases rfl rfl hf₁ h₁
    · rw [hstage] at hcongr
      cases h₂.symm.trans (exec_stage_ok (i := .encodeInput) rfl hf₂ rfl hcongr)
      exact ⟨rfl, fun _ => ⟨rfl, rfl, rfl, rfl, rfl, rfl, rfl, rfl, rfl, rfl, rfl, rfl, rfl⟩⟩
    · rw [hstage] at hcongr
      cases h₂.symm.trans (exec_stage_raise (i := .encodeInput) rfl hf₂ rfl hcongr)
      rw [State.raise_status, State.raise_status]
      exact ⟨rfl, fun hok => absurd hok r.status_ne_ok⟩
  · obtain ⟨r, hstage, hstatus⟩ := (exec_stage_status rfl rfl hf h).2 hne
    cases encodeStage_eq_error hstage
    exact hstatus

/-- Settles O59: both cores' DECODE stages end alike, and the run of the stages ends as DECODE does. -/
theorem decodeDependsOnBlobAndOutOnly : Obligations.DecodeDependsOnBlobAndOutOnly := by
  unfold Obligations.DecodeDependsOnBlobAndOutOnly
  refine ⟨fun s₁ s₂ t₁ t₂ hf₁ hf₂ hcaps hblob hout h₁ h₂ => ?_, runsAs_decodeStages.composes rfl rfl⟩
  have hcongr := decodeStage_congr hcaps.symm hblob.symm hout.symm
  obtain ⟨u, hstage, rfl⟩ | ⟨r, hstage, rfl⟩ := exec_stage_cases rfl rfl hf₁ h₁
  · rw [hstage] at hcongr
    cases h₂.symm.trans (exec_stage_ok (i := .decodeBlob) rfl hf₂ rfl hcongr)
    exact ⟨rfl, rfl, fun hne => absurd rfl hne, fun _ => ⟨rfl, rfl, rfl, rfl, rfl, rfl, rfl, rfl, rfl⟩⟩
  · rw [hstage] at hcongr
    cases h₂.symm.trans (exec_stage_raise (i := .decodeBlob) rfl hf₂ rfl hcongr)
    have houtBuf (s : State) : ((Instr.unspecified .decodeBlob s).raise r).outBuf = s.outBuf :=
      (State.raise_outBuf _ r).trans s.afterDecode_outBuf
    rw [State.raise_status, State.raise_status, houtBuf, houtBuf]
    exact ⟨rfl, hout, fun _ => rfl, fun hok => absurd hok r.status_ne_ok⟩

end Sys2Proof
end

section
/-! SUPPORT. CSR.READ of STATUS (spec/43_system.md R211): the value is read before the command writes its own status.
O17 follows. -/

namespace Sys2Proof

open Machine

/-- A byte is its own little-endian form, with zeros above it (R89). -/
theorem leBytes_succ_toNat (k : Nat) (b : Byte) : leBytes (k + 1) b.toNat = b :: List.replicate k 0 := by
  rw [leBytes_succ, BitVec.ofNat_toNat, BitVec.setWidth_eq, Nat.div_eq_of_lt b.isLt]
  simp [leBytes, List.map_const']

/-- CSR.READ of a listed register answers with its value (R210). -/
theorem exec_csrRead {s : State} {n : Byte} {v : Nat} (hf : s.fault = false) (hlisted : csrListed n = true)
    (hcsr : s.csr n = some v) : exec (.csrRead n) s = .next (s.finish (read64 v)) :=
  exec_ok hf (if_pos hlisted) (by simp [Instr.rule, hcsr])

/-- CSR.READ 0x00 answers with the status it finds, and ends OK itself (R211). -/
theorem exec_csrRead_status {s : State} (hf : s.fault = false) :
    exec (.csrRead 0x00) s = .next (s.finish (s.status.byte :: List.replicate 7 0)) := by
  rw [exec_csrRead hf rfl rfl, read64_toNat s.status.byte (by decide), leBytes_succ_toNat]

/-- Settles O17: the second read finds the OK that the first one left. -/
theorem statusReadReturnsThePreviousStatus : Obligations.StatusReadReturnsThePreviousStatus := by
  unfold Obligations.StatusReadReturnsThePreviousStatus
  intro s hf
  have hfirst := exec_csrRead_status hf
  have hsecond := exec_csrRead_status (s := s.finish (s.status.byte :: List.replicate 7 0)) hf
  exact ⟨_, _, hfirst, rfl, rfl, hsecond, rfl⟩

end Sys2Proof
end

section
/-! SUPPORT. The exceptions (spec/60_exceptions.md R226, R229): each row of R229 covers the flags and the pieces that a
raise draws, and a latched core refuses every packet, whatever it decodes to. O19 and O13 follow. -/

namespace Sys2Proof

open Machine Claims

namespace Machine

/-! ### The rows of R229 -/

theorem State.raise_sameButFlags (s : State) (r : Raise) : s.SameButFlags (s.raise r) := by cases r <;> rfl

/-- A command that changed nothing is within every row. -/
theorem raiseFrame_refl (i : Instr) (s : State) : RaiseFrame i s s := by cases i <;> rfl

/-- The flags and the response stand in every row. -/
theorem raiseFrame_of_sameButFlags {i : Instr} {s u t : State} (h : RaiseFrame i s u) (ht : u.SameButFlags t) :
    RaiseFrame i s t := by
  rw [ht]
  cases i
  all_goals
    exact congrArg (fun v : State => { v with
      status := t.status, fault := t.fault, faultCause := t.faultCause, response := t.response }) h

/-! What the draws of whole vectors can have done. Naming the drawn vectors keeps the kernel from comparing them
element by element. -/

theorem State.drawTable_eq (s : State) : ∃ code valid, s.drawTable = { s with code := code, codeValid := valid } :=
  ⟨_, _, rfl⟩

theorem State.drawTa_eq (s : State) :
    ∃ n sym len, s.drawTa = { s with taN := n, taSym := sym, taLen := len } :=
  ⟨_, _, _, rfl⟩

theorem State.drawFreq_eq (s : State) : ∃ freq, s.drawFreq = { s with freq := freq } := ⟨_, rfl⟩

/-- What a raise leaves unspecified of the state is within the instruction's row (R229). -/
theorem raiseFrame_unspecified (i : Instr) (s : State) : RaiseFrame i s (i.unspecified s) := by
  cases i
  case tableDerive | tableLoad =>
    obtain ⟨code, valid, htable⟩ := s.drawTable_eq
    simp only [Instr.unspecified, State.afterTableDerive, State.afterTableLoad, htable]
    rfl
  case hefSerialize =>
    obtain ⟨n, sym, len, hta⟩ := s.drawTa_eq
    rw [Instr.unspecified, State.afterHefSerialize, hta]
    rfl
  case hefDeserialize =>
    obtain ⟨n, sym, len, hta⟩ := s.drawCur.drawTa_eq
    rw [Instr.unspecified, State.afterHefDeserialize, hta]
    rfl
  case encodeInput =>
    obtain ⟨freq, hfreq⟩ := s.drawFreq_eq
    obtain ⟨code, valid, htable⟩ := s.drawFreq.drawSort.drawArena.drawTable_eq
    obtain ⟨n, sym, len, hta⟩ := s.drawFreq.drawSort.drawArena.drawTable.drawPath.drawData.drawTa_eq
    rw [Instr.unspecified, State.afterEncode, hta, htable, hfreq]
    rfl
  case decodeBlob =>
    obtain ⟨n, sym, len, hta⟩ := s.drawCur.drawTa_eq
    obtain ⟨code, valid, htable⟩ := s.drawCur.drawTa.drawCodes.drawData.drawTable_eq
    rw [Instr.unspecified, State.afterDecode, htable, hta]
    rfl
  all_goals rfl

/-! ### The latch -/

/-- A latched core refuses every packet, legal or not (R226). -/
theorem serve_command_of_fault {s : State} (hf : s.fault = true) (p : List Byte) :
    serve (.command p) s = .next s.refuse := by
  rw [serve, serveCommand]
  split
  · exact exec_of_fault hf
  · rw [State.illegalPacket, if_pos hf]

end Machine

/-- Settles O19: a refusal and a raise write the flags, over what R229 leaves of the state. -/
theorem raiseLeavesTheRestUnchanged : Obligations.RaiseLeavesTheRestUnchanged := by
  unfold Obligations.RaiseLeavesTheRestUnchanged
  intro i s t hexec hstatus
  obtain ⟨-, rfl⟩ | ⟨-, -, rfl⟩ | ⟨-, -, u, l, -, rfl⟩ | ⟨-, -, r, -, rfl⟩ := exec_cases hexec
  · exact raiseFrame_of_sameButFlags (raiseFrame_refl i s) rfl
  · exact raiseFrame_of_sameButFlags (raiseFrame_refl i s) (s.raise_sameButFlags _)
  · exact absurd rfl hstatus
  · exact raiseFrame_of_sameButFlags (raiseFrame_unspecified i s) (State.raise_sameButFlags _ r)

/-- Settles O13: every command is refused, and the host's loads and reads do not look at the latch (O7). -/
theorem latchedCoreRefusesEveryCommand : Obligations.LatchedCoreRefusesEveryCommand := by
  unfold Obligations.LatchedCoreRefusesEveryCommand
  intro s rest l hf
  refine ⟨fun p hp => ?_, fun i => exec_of_fault hf, hostInteractionsTouchOnlyTheirBuffer s rest l⟩
  exact (step_of_pending hp).trans (serve_command_of_fault (s := { s with pending := rest }) hf p)

end Sys2Proof
end

section
/-! SUPPORT. Progress (spec/70_reset_and_hazards.md R260): a rule ends in a value or in a raise, and the model's own
stop is on no path from the invariant: a walk in a hierarchical arena only meets nodes that exist. O4 follows. -/

namespace Sys2Proof

open Machine Claims

namespace Machine

/-! ### Computations that never stop -/

/-- The computation ends in a value or a raise, as the pseudocode can (R15), not in the model's own stop (log 11). -/
def NeverStuck {α : Type} (x : Res α) : Prop := ∀ f, x ≠ .error (.stuck f)

section Rules

variable {α β : Type}

theorem neverStuck_ok (a : α) : NeverStuck (.ok a : Res α) := nofun

theorem neverStuck_raise (r : Raise) : NeverStuck (.error (.raise r) : Res α) := nofun

theorem NeverStuck.bind {x : Res α} {f : α → Res β} (hx : NeverStuck x) (hf : ∀ a, x = .ok a → NeverStuck (f a)) :
    NeverStuck (x >>= f) := by
  intro e h
  obtain h | ⟨a, ha, h⟩ := res_bind_error.1 h
  · exact hx e h
  · exact hf a ha e h

/-- A loop never stops when its turns do not, from whatever they keep. -/
theorem neverStuck_foldlM {f : β → α → Res β} {P : β → Prop} (hf : ∀ b a, P b → NeverStuck (f b a))
    (hkeep : ∀ b a b', P b → f b a = .ok b' → P b') (l : List α) {b : β} (hb : P b) : NeverStuck (l.foldlM f b) := by
  induction l generalizing b with
  | nil => exact neverStuck_ok b
  | cons a l ih =>
    rw [List.foldlM_cons]
    exact (hf b a hb).bind fun b' hb' => ih (hkeep b a b' hb hb')

theorem neverStuck_of_eq_error {x : Res α} {r : Raise} (h : ∀ e, x = .error e → e = .raise r) : NeverStuck x :=
  fun f hf => nomatch h (.stuck f) hf

theorem withoutResult_eq_error {stage : State → Res State} {s : State} {e : Halt} :
    withoutResult stage s = .error e ↔ stage s = .error e := by
  unfold withoutResult
  cases stage s <;> simp [Except.map]

theorem neverStuck_withoutResult {stage : State → Res State} {s : State} :
    NeverStuck (withoutResult stage s) ↔ NeverStuck (stage s) :=
  forall_congr' fun _ => not_congr withoutResult_eq_error

end Rules

/-! ### The shared operations -/

theorem neverStuck_ensure (c : Bool) (r : Raise) : NeverStuck (ensure c r) :=
  neverStuck_of_eq_error fun _ h => (ensure_eq_error.1 h).2

theorem neverStuck_pushBitCap (caps : Capacities) (v : BitSeq) (b : Bool) : NeverStuck (pushBitCap caps v b) :=
  neverStuck_of_eq_error fun _ => pushBitCap_eq_error

theorem neverStuck_pushByteCap (caps : Capacities) (v : BitSeq) (y : Byte) (n : Nat) :
    NeverStuck (pushByteCap caps v y n) := by
  rw [pushByteCap]
  split_ifs
  · exact neverStuck_ok _
  · exact neverStuck_raise _

theorem neverStuck_pushSeqCap (caps : Capacities) (v o : BitSeq) : NeverStuck (pushSeqCap caps v o) :=
  neverStuck_of_eq_error fun _ => pushSeqCap_eq_error

section Readers

variable (blob : List Byte) (cur k : Nat)

theorem neverStuck_readBytes : NeverStuck (readBytes blob cur k) :=
  neverStuck_of_eq_error fun _ h => (readBytes_eq_error.1 h).2

theorem neverStuck_readU8 : NeverStuck (readU8 blob cur) :=
  (neverStuck_readBytes blob cur 1).bind fun _ _ => neverStuck_ok _

theorem neverStuck_readBits : NeverStuck (readBits blob cur k) :=
  (neverStuck_readBytes blob cur _).bind fun _ _ => neverStuck_ok _

theorem neverStuck_readVarint : NeverStuck (readVarint blob cur) :=
  (neverStuck_readU8 blob cur).bind fun _ _ => (neverStuck_ensure _ _).bind fun _ _ =>
    (neverStuck_readBytes blob _ _).bind fun _ _ => neverStuck_ok _

end Readers

/-! ### The tree walks -/

theorem insertCode_openEnd_neverStuck {a : Arena} (h : a.Wf) {root : Nat} {l r : Option Nat} {p q : List Bool}
    (hroot : a.root = some root) (hp : InnerAt a root p l r) (hopen : OpenEnd l r q) (y : Byte) :
    NeverStuck (insertCode a y (p ++ q)) := by
  obtain ⟨hfits, hover⟩ := insertCode_openEnd h hroot hp hopen y
  rcases Nat.lt_or_ge Config.nodeCap (a.nodes.length + q.length) with hcap | hcap
  · rw [hover hcap]
    exact neverStuck_raise _
  · obtain ⟨a', hins, -⟩ := hfits hcap
    rw [hins]
    exact neverStuck_ok _

/-- An insertion into a hierarchical arena (R33, R153): the part of the code that exists ends at a leaf, at a node from
which the rest of the code is free, or, with the code at its end, at a node that has a child. -/
theorem insertCode_neverStuck {a : Arena} (h : a.Wf) (y : Byte) (code : List Bool) :
    NeverStuck (insertCode a y code) := by
  cases hroot : a.root with
  | none =>
    simp only [insertCode, hroot]
    exact neverStuck_raise _
  | some root =>
    obtain ⟨p, q, rfl, hp, hlongest⟩ := exists_longest_descend a (h.root_spec hroot).1 code
    obtain ⟨j, hj⟩ := Option.ne_none_iff_exists'.1 hp
    have hn := List.getElem?_eq_getElem (Arena.descend_lt hj).2
    cases hnode : a.nodes[j]'(Arena.descend_lt hj).2 with
    | leaf z f =>
      rw [insertCode_leaf_conflict hroot (List.prefix_append p q) ⟨j, f, hj, hnode ▸ hn⟩]
      exact neverStuck_raise _
    | internal l r f =>
      rw [hnode] at hn
      have hinner : InnerAt a root p l r := ⟨j, f, hj, hn⟩
      by_cases hopen : OpenEnd l r q
      · exact insertCode_openEnd_neverStuck h hroot hinner hopen y
      · cases q with
        | nil =>
          have hchild : l ≠ none ∨ r ≠ none := not_and_or.1 fun hbare => hopen ⟨fun _ => hbare, nofun⟩
          rw [List.append_nil, insertCode_inner_conflict hroot hinner hchild]
          exact neverStuck_raise _
        | cons b q =>
          have hmissing := hlongest b q rfl
          rw [h.descend_concat, hj] at hmissing
          refine absurd ⟨nofun, fun b' rest heq => ?_⟩ hopen
          cases heq
          simpa [childOf, hn, Node.child] using hmissing

/-- The walk over the data stays on internal nodes, and begins each symbol at one (R33, R157). -/
theorem decodeWalk_neverStuck {a : Arena} (h : a.Wf) {root cur f₀ f : Nat} {l₀ r₀ l r : Option Nat}
    (hroot : a.nodes[root]? = some (.internal l₀ r₀ f₀)) (hcur : a.nodes[cur]? = some (.internal l r f))
    (bits : List Bool) : NeverStuck (decodeWalk a.nodes root cur bits) := by
  induction bits generalizing cur l r f with
  | nil => exact neverStuck_ok []
  | cons b rest ih =>
    simp only [decodeWalk, hcur]
    cases hc : (if b then r else l) with
    | none => exact neverStuck_raise _
    | some c =>
      have hlt : c < a.nodes.length := h.childOf_lt (i := cur) (b := b) (by simp [childOf, hcur, Node.child, hc])
      have hn := List.getElem?_eq_getElem hlt
      cases hnode : a.nodes[c] with
      | leaf y g =>
        rw [hnode] at hn
        simp only [hn]
        exact (ih hroot).bind fun _ _ => neverStuck_ok _
      | internal l' r' g =>
        rw [hnode] at hn
        simp only [hn]
        exact ih hn

/-- The data bits in a hierarchical arena, on a LEAF root or an internal one, or with no tree (R157, R158). -/
theorem decodeBits_neverStuck {a : Arena} (h : a.Wf) (bits : List Bool) : NeverStuck (decodeBits a bits) := by
  cases hroot : a.root with
  | none =>
    rw [decodeBits_noTree hroot]
    split_ifs
    · exact neverStuck_ok _
    · exact neverStuck_raise _
  | some root =>
    have hlt := (h.root_spec hroot).1
    have hn := List.getElem?_eq_getElem hlt
    cases hnode : a.nodes[root] with
    | leaf y f =>
      rw [decodeBits_leafRoot hroot ⟨root, f, Arena.descend_nil hlt, hnode ▸ hn⟩]
      exact neverStuck_ok _
    | internal l r f =>
      rw [hnode] at hn
      rw [decodeBits_of_innerRoot hroot ⟨root, f, Arena.descend_nil hlt, hn⟩]
      exact decodeWalk_neverStuck h hn hn bits

/-! ### The stages -/

variable {s : State}

theorem State.Inv.arena_wf (h : s.Inv) : s.arena.Wf := by
  obtain ⟨-, -, -, -, -, harena, -⟩ := h
  exact harena

theorem tableDeriveStage_neverStuck (h : s.arena.Wf) : NeverStuck (tableDeriveStage s) := by
  obtain ⟨-, hstage⟩ | ⟨-, hstage⟩ := tableDeriveStage_answers h
  · rw [hstage]
    exact neverStuck_ok _
  · rw [hstage]
    exact neverStuck_raise _

theorem treeInsertStage_neverStuck (h : s.arena.Wf) (y : Byte) (code : BitSeq) :
    NeverStuck (treeInsertStage y code s) :=
  (insertCode_neverStuck h y code.bits).bind fun _ _ => neverStuck_ok _

theorem treeFromTableStage_neverStuck (h : s.Inv) : NeverStuck (treeFromTableStage s) :=
  (neverStuck_ok _).bind fun _ hinit =>
    neverStuck_foldlM (P := State.Inv) (fun _ y hu => treeInsertStage_neverStuck hu.arena_wf y _)
      (fun _ _ _ => treeInsertStage_inv) _ (treeInitStage_inv h hinit)

theorem treeDecodeStage_neverStuck (h : s.arena.Wf) : NeverStuck (treeDecodeStage s) :=
  (decodeBits_neverStuck h s.data.bits).bind fun _ _ => (neverStuck_ensure _ _).bind fun _ _ => neverStuck_ok _

theorem encodeSymbol_neverStuck (s : State) (data : BitSeq) (y : Byte) : NeverStuck (encodeSymbol s data y) := by
  refine (neverStuck_ensure _ _).bind fun _ _ => ?_
  split_ifs
  · exact neverStuck_pushBitCap _ _ _
  · exact neverStuck_pushSeqCap _ _ _

theorem dataEncodeStage_neverStuck (s : State) : NeverStuck (dataEncodeStage s) :=
  (neverStuck_foldlM (P := fun _ => True) (fun data y _ => encodeSymbol_neverStuck s data y) (fun _ _ _ _ _ => trivial)
    _ trivial).bind fun _ _ => neverStuck_ok _

theorem hefDeserializeStage_neverStuck (s : State) : NeverStuck (hefDeserializeStage s) :=
  (neverStuck_readVarint _ _).bind fun _ _ => (neverStuck_ensure _ _).bind fun _ _ =>
    (neverStuck_readBytes _ _ _).bind fun _ _ => (neverStuck_readBytes _ _ _).bind fun _ _ =>
    (neverStuck_ensure _ _).bind fun _ _ => (neverStuck_readBits _ _ _).bind fun _ _ =>
    (neverStuck_readVarint _ _).bind fun _ _ => (neverStuck_readU8 _ _).bind fun _ _ =>
    (neverStuck_ensure _ _).bind fun _ _ => (neverStuck_ensure _ _).bind fun _ _ =>
    (neverStuck_readBits _ _ _).bind fun _ _ => neverStuck_ok _

theorem loadEntries_neverStuck (codes : BitSeq) (l : List (Byte × Byte)) (off : Nat) (s : State) :
    NeverStuck (loadEntries codes off l s) := by
  induction l generalizing off s with
  | nil => exact neverStuck_ok s
  | cons e rest ih =>
    exact (neverStuck_ensure _ _).bind fun _ _ => (neverStuck_ensure _ _).bind fun _ _ => ih _ _

theorem tableLoadStage_neverStuck (s : State) : NeverStuck (tableLoadStage s) :=
  loadEntries_neverStuck s.codes s.taEntries 0 s.clearTable

/-- DECODE's stages each find the invariant that the one before kept (R192). -/
theorem decodeStage_neverStuck (h : s.Inv) : NeverStuck (decodeStage s) :=
  (hefDeserializeStage_neverStuck s).bind fun _ hread => (tableLoadStage_neverStuck _).bind fun _ hload =>
    have hloaded := tableLoadStage_inv (hefDeserializeStage_inv h hread) hload
    (treeFromTableStage_neverStuck hloaded).bind fun _ htree =>
      treeDecodeStage_neverStuck (treeFromTableStage_inv hloaded htree).arena_wf

theorem passVarint_neverStuck (k v : Nat) (s : State) : NeverStuck (passVarint k v s) :=
  (neverStuck_readBytes _ _ _).bind fun _ _ => neverStuck_ok _

/-! ### Instructions and requests -/

/-- No instruction's rule stops on a state that satisfies the invariant. -/
theorem rule_neverStuck (h : s.Inv) (i : Instr) : NeverStuck (i.rule s) := by
  cases i <;> simp only [Instr.rule, neverStuck_withoutResult]
  case bsClear | bsCopy | bsSize | bsIter | freqCount | treeInit => exact neverStuck_ok _
  case bsPushBit => exact (neverStuck_pushBitCap _ _ _).bind fun _ _ => neverStuck_ok _
  case bsPushByte =>
    exact (neverStuck_ensure _ _).bind fun _ _ => (neverStuck_pushByteCap _ _ _ _).bind fun _ _ => neverStuck_ok _
  case bsPushSeq => exact (neverStuck_pushSeqCap _ _ _).bind fun _ _ => neverStuck_ok _
  case bsPop | bsAt => exact (neverStuck_ensure _ _).bind fun _ _ => neverStuck_ok _
  case treeBuild => exact treeBuildStage_eq s ▸ neverStuck_ok _
  case tableDerive => exact tableDeriveStage_neverStuck h.arena_wf
  case dataEncode => exact dataEncodeStage_neverStuck s
  case tableLoad => exact tableLoadStage_neverStuck s
  case treeInsert y r => exact treeInsertStage_neverStuck h.arena_wf y _
  case treeFromTable => exact treeFromTableStage_neverStuck h
  case treeDecode => exact treeDecodeStage_neverStuck h.arena_wf
  case hefSerialize => exact neverStuck_of_eq_error fun _ => hefSerializeStage_eq_error
  case hefDeserialize => exact hefDeserializeStage_neverStuck s
  case encodeInput => exact neverStuck_of_eq_error fun _ => encodeStage_eq_error
  case decodeBlob => exact decodeStage_neverStuck h
  case csrRead =>
    split
    · exact neverStuck_raise _
    · exact neverStuck_ok _
  case varintTag0 | varintTag1 | varintTag2 | varintTag3 => exact passVarint_neverStuck _ _ s

/-- An instruction whose rule does not stop ends in a next state: a refusal, F_ILLEGAL_CMD, the rule's end or its raise
(R227). -/
theorem exec_next {i : Instr} (h : NeverStuck (i.rule s)) : ∃ t, exec i s = .next t := by
  cases hf : s.fault with
  | true => exact ⟨_, exec_of_fault hf⟩
  | false =>
    cases hi : i.problem with
    | some e => exact ⟨_, (exec_eq_runCommand i s).trans (runCommand_illegal hf hi)⟩
    | none =>
      cases hrule : i.rule s with
      | ok x => exact ⟨_, exec_ok hf hi hrule⟩
      | error e =>
        cases e with
        | raise r => exact ⟨_, exec_raise hf hi hrule⟩
        | stuck f => exact absurd hrule (h f)

/-- Every request is answered: a command because no rule stops, a load because it fits its buffer (R47). -/
theorem serve_next (h : s.Inv) {q : Request} {rest : List Request}
    (hlegal : State.HostMoveLegal { s with pending := q :: rest }) : ∃ t, serve q s = .next t := by
  cases q with
  | loadIn l | loadOut l | loadBlob l => exact ⟨_, if_pos hlegal⟩
  | readIn | readOut | readBlob | reset => exact ⟨_, rfl⟩
  | command p =>
    rw [serve, serveCommand]
    split
    · exact exec_next (rule_neverStuck h _)
    · exact ⟨_, rfl⟩
  | readVarint =>
    rw [serve, serveVarint]
    split
    · exact exec_next (rule_neverStuck h _)
    · exact ⟨_, rfl⟩

end Machine

/-- Settles O4: a step serves the oldest request, if any, and no rule stops on a state that satisfies the invariant. -/
theorem legalMovesNeverStop : Obligations.LegalMovesNeverStop := by
  unfold Obligations.LegalMovesNeverStop
  intro s h hlegal
  cases hp : s.pending with
  | nil => exact ⟨s, step_of_empty hp⟩
  | cons q rest =>
    have hmove : State.HostMoveLegal { s with pending := q :: rest } := hp ▸ hlegal
    rw [step_of_pending hp]
    exact serve_next (s := { s with pending := rest }) h hmove

end Sys2Proof
end
